-- ==== Sys2Proof/Word.lean ====
section
/-! DEFINITION. The words of the block: a channel byte or palette index, a packed colour, a request, a
response (`00_scope.md` R2, `30_encoding.md` R28, R32, R33), and a cube coordinate. -/

namespace Sys2Proof

/-- A channel value, a palette index or a luminance byte: 8 bits unsigned (R2 `CH_W`, `IDX_W`). -/
abbrev Byte := BitVec 8

/-- A packed colour: R in bits 23..16, G in 15..8, B in 7..0 (R28). -/
abbrev Rgb24 := BitVec 24

/-- A request word `op, a, b` of 4, 24 and 24 bits (R32). -/
abbrev Request := BitVec 52

/-- A response word (R33). -/
abbrev Response := BitVec 32

/-- A cube coordinate, 0..5 (R9, R30): the legal addresses of `CUBE_VALUE`, and no others (R39). -/
abbrev Coord := Fin 6

end Sys2Proof
end

