-- ==== Sys2Proof/Machine/Operands.lean ====
section
/-! DEFINITION. The operand and result forms: the channels of a packed colour, packing three channels,
and the zero extension of a result into the response word (`30_encoding.md` R28, R33). -/

namespace Sys2Proof.Machine

open Sys2Proof

/-- `R(c)`: bits 23..16 of a packed colour (R28). -/
def red (c : Rgb24) : Byte := c.extractLsb' 16 8

/-- `G(c)`: bits 15..8 of a packed colour (R28). -/
def green (c : Rgb24) : Byte := c.extractLsb' 8 8

/-- `B(c)`: bits 7..0 of a packed colour (R28). -/
def blue (c : Rgb24) : Byte := c.extractLsb' 0 8

/-- `rgb(r, g, b)`: the packed colour with these channels (R28). -/
def rgb (r g b : Byte) : Rgb24 := r ++ g ++ b

/-- `zext_32` of a result: the result in the low bits of the response, zero above (R33). -/
def zext32 {w : Nat} (v : BitVec w) : Response := v.setWidth 32

end Sys2Proof.Machine
end

