-- ==== Sys2Proof/Syntax.lean ====
section
/-! DEFINITION. The ten operations, one constructor per row of the opcode table, each with exactly the
operand bits that `30_encoding.md` R34 says it reads. -/

namespace Sys2Proof

/-- A request's operation with the operand bits it reads (R34, R35). -/
inductive Instr where
  /-- DEC (R44): the palette index `a[7:0]`. -/
  | dec (index : Byte)
  /-- ENC (R57): the packed colour `a[23:0]`. -/
  | enc (colour : Rgb24)
  /-- CUBEVAL (R43): the cube coordinate `a[2:0]`; 6 and 7 are reserved (R39). -/
  | cubeval (coordinate : BitVec 3)
  /-- LUM (R45): the packed colour `a[23:0]`. -/
  | lum (colour : Rgb24)
  /-- DIST (R48): the packed colours `a[23:0]` and `b[23:0]`. -/
  | dist (x y : Rgb24)
  /-- CIDXR (R53): the red channel byte `a[7:0]`. -/
  | cidxr (v : Byte)
  /-- CIDXG (R54): the green channel byte `a[7:0]`. -/
  | cidxg (v : Byte)
  /-- CIDXB (R55): the blue channel byte `a[7:0]`. -/
  | cidxb (v : Byte)
  /-- GLUT (R46): the grey byte `a[7:0]`. -/
  | glut (v : Byte)
  /-- CUBEIDX (R56): the packed colour `a[23:0]`. -/
  | cubeidx (colour : Rgb24)
deriving DecidableEq, Repr

end Sys2Proof
end

