-- ==== Sys2Proof/WellFormed.lean ====
section
/-! DEFINITION. Which operations are defined on the operand they carry. There is one check: CUBEVAL's
coordinate, "the only operand value of any operation that is not defined" (`30_encoding.md` R39). -/

namespace Sys2Proof

/-- An operation whose operand value the spec defines (R39): all of them, but CUBEVAL of 6 and 7. -/
def Instr.wellFormed : Instr → Bool
  | .cubeval k => decide (k.toNat < 6)
  | .dec _ => true
  | .enc _ => true
  | .lum _ => true
  | .dist _ _ => true
  | .cidxr _ => true
  | .cidxg _ => true
  | .cidxb _ => true
  | .glut _ => true
  | .cubeidx _ => true

/-- The check of `Instr.wellFormed` as a proposition that `decide` can evaluate. -/
abbrev Instr.WellFormed (i : Instr) : Prop := i.wellFormed = true

end Sys2Proof
end

