-- ==== Sys2Proof/Decode.lean ====
section
/-! DEFINITION. From a request word to an operation and back (`30_encoding.md` R32 to R40). The decoder
is total: it answers an operation, or says by name why there is none. The decoder reads `op` alone to
choose the operation (R35); CUBEVAL of 6 or 7 decodes to `cubeval 6`, `cubeval 7`, which are not
well-formed and whose meaning refuses (R39, R43; log 6). -/

namespace Sys2Proof

/-- Why a word is no operation. -/
inductive DecodeError where
  /-- The operation code is one of 10..15, which are reserved (R38). -/
  | reservedOperation (op : BitVec 4)
deriving DecidableEq, Repr

/-- The operation code, bits 51..48 of a request (R32). -/
def opField (w : Request) : BitVec 4 := w.extractLsb' 48 4

/-- The first operand, bits 47..24 of a request (R32). -/
def operandA (w : Request) : BitVec 24 := w.extractLsb' 24 24

/-- The second operand, bits 23..0 of a request (R32). -/
def operandB (w : Request) : BitVec 24 := w.extractLsb' 0 24

/-- `a[7:0]`: the operand of DEC, CIDXR, CIDXG, CIDXB and GLUT (R34). -/
def byteOperand (w : Request) : Byte := (operandA w).setWidth 8

/-- `a[2:0]`: the operand of CUBEVAL (R34). -/
def coordOperand (w : Request) : BitVec 3 := (operandA w).setWidth 3

/-- The operation a request word names (R35), with the operand bits that it reads (R34). Bits not read
are dropped here and affect nothing after (R36). Codes 10..15 are reserved (R38). -/
def decode (w : Request) : Except DecodeError Instr :=
  match (opField w).toNat with
  | 0 => .ok (.dec (byteOperand w))
  | 1 => .ok (.enc (operandA w))
  | 2 => .ok (.cubeval (coordOperand w))
  | 3 => .ok (.lum (operandA w))
  | 4 => .ok (.dist (operandA w) (operandB w))
  | 5 => .ok (.cidxr (byteOperand w))
  | 6 => .ok (.cidxg (byteOperand w))
  | 7 => .ok (.cidxb (byteOperand w))
  | 8 => .ok (.glut (byteOperand w))
  | 9 => .ok (.cubeidx (operandA w))
  | _ => .error (.reservedOperation (opField w))

/-- The request word `op, a, b` (R32). -/
def request (op : BitVec 4) (a b : BitVec 24) : Request := op ++ a ++ b

/-- The operation code of each operation (R35). -/
def opcode : Instr → BitVec 4
  | .dec _ => 0
  | .enc _ => 1
  | .cubeval _ => 2
  | .lum _ => 3
  | .dist _ _ => 4
  | .cidxr _ => 5
  | .cidxg _ => 6
  | .cidxb _ => 7
  | .glut _ => 8
  | .cubeidx _ => 9

/-- The `a` field of an assembled request: the operand, the bits the operation does not read written
as zero (R34, R41). -/
def encodeA : Instr → BitVec 24
  | .dec i => i.setWidth 24
  | .enc c => c
  | .cubeval k => k.setWidth 24
  | .lum c => c
  | .dist x _ => x
  | .cidxr v => v.setWidth 24
  | .cidxg v => v.setWidth 24
  | .cidxb v => v.setWidth 24
  | .glut v => v.setWidth 24
  | .cubeidx c => c

/-- The `b` field of an assembled request: only DIST reads it; zero elsewhere (R34, R41). -/
def encodeB : Instr → BitVec 24
  | .dist _ y => y
  | .dec _ => 0
  | .enc _ => 0
  | .cubeval _ => 0
  | .lum _ => 0
  | .cidxr _ => 0
  | .cidxg _ => 0
  | .cidxb _ => 0
  | .glut _ => 0
  | .cubeidx _ => 0

/-- The request word of an operation (R32, R34, R35, R41). -/
def encode (i : Instr) : Request := request (opcode i) (encodeA i) (encodeB i)

/-- The operation read from a request whose bits are `w`, numbered as the opcode table numbers them.
A request is ONE 52-bit word (R37) with bit 0 its least significant bit, on a 52-bit port (R32): there
are no further words and nothing is stored in bytes. `w` is a number of `nbits` bits, and every bit
above them is zero; a number that does not fit 52 bits is no request (log 15). -/
def decodeTableWord (nbits w : Nat) : Option Instr :=
  let bits := w % 2 ^ nbits
  if bits < 2 ^ 52 then
    match decode (BitVec.ofNat 52 bits) with
    | .ok i => some i
    | .error _ => none
  else none

end Sys2Proof
end

