-- ==== Sys2Proof/Config.lean ====
section
/-! DEFINITION. The parameters that are fixed when the block is built (`00_scope.md` R2, `10_state.md`
R12, `70_reset_and_hazards.md` R69). Every other parameter of R2 has one value and is a definition of
`Machine/Tables.lean`, or is outside the model (`LATENCY`, `N_PORTS`; log 9). -/

namespace Sys2Proof

/-- `THRESH_SENSE`: which coordinate a channel byte equal to a threshold takes
(`43_cube_indexing.md` R52, `92_eei_decisions.md` D7; log 4). -/
inductive ThreshSense where
  /-- `v >= t` counts the threshold: the spec's choice (R2, R52). -/
  | upper
  /-- `v > t` counts the threshold: the alternative reading of D7. -/
  | lower
deriving DecidableEq, Repr

/-- What the block was built with (R69). No operation changes it (R7, R23). The table is open: it is
constrained by R13 to R15 only (`Machine.GreyLutAdmissible`), and statements range over every table
that satisfies them (log 2). -/
structure Build where
  /-- `GREY_LUT`: the palette index for each grey byte (R12). -/
  greyLut : Vector Byte 256
  /-- `THRESH_SENSE` (R2, R52). -/
  threshSense : ThreshSense
deriving DecidableEq, Repr

end Sys2Proof
end

