-- ==== Sys2Proof/Machine/Tables.lean ====
section
/-! DEFINITION. The constants of the block, value by value (`10_state.md` R8 to R11), the spec's default
greyscale table (R16), and what R13 to R15 require of any greyscale table. -/

namespace Sys2Proof.Machine

open Sys2Proof

/-- `SYS_COLOUR`: the 16 system colours, packed `0xRRGGBB` (R8; the list of §6 as it stands,
`90_conflicts.md` C4). -/
def sysColourTable : Vector Rgb24 16 :=
  #v[0x000000, 0xCE0000, 0x00CE00, 0xCECE00, 0x0000EE, 0xCE00CE, 0x00CECE, 0xEFEFEF,
     0x7F7F7F, 0xFF0000, 0x00FF00, 0xFFFF00, 0x5C5CFF, 0xFF00FF, 0x00FFFF, 0xFFFFFF]

/-- `CUBE_VALUE`: the channel intensity of each cube coordinate (R9). -/
def cubeValueTable : Vector Byte 6 := #v[0, 95, 135, 175, 215, 255]

/-- `THRESH_R` (R10). -/
def threshRTable : Vector Byte 5 := #v[38, 115, 155, 196, 235]

/-- `THRESH_G` (R10). -/
def threshGTable : Vector Byte 5 := #v[36, 116, 154, 195, 235]

/-- `THRESH_B` (R10). -/
def threshBTable : Vector Byte 5 := #v[35, 115, 155, 195, 235]

/-- `LUM_W_R` (R11). -/
def lumWR : Nat := 3568058

/-- `LUM_W_G` (R11). -/
def lumWG : Nat := 11998262

/-- `LUM_W_B` (R11). -/
def lumWB : Nat := 1210896

/-- `LUM_SHIFT` (R11). -/
def lumShift : Nat := 24

/-- `DIST_R_BASE` (R11). -/
def distRBase : Int := 1024

/-- `DIST_G_W` (R11). -/
def distGW : Int := 2048

/-- `DIST_B_BASE` (R11). -/
def distBBase : Int := 1534

/-- Bytes 0..63 of `GREY_LUT_DEFAULT`, eight a row as R16 prints them. -/
def greyLutDefaultQuarter0 : Vector Byte 64 :=
  #v[
   16, 16, 16, 16, 16, 232, 232, 232,
   232, 232, 232, 232, 232, 232, 233, 233,
   233, 233, 233, 233, 233, 233, 233, 233,
   234, 234, 234, 234, 234, 234, 234, 234,
   234, 234, 235, 235, 235, 235, 235, 235,
   235, 235, 235, 235, 236, 236, 236, 236,
   236, 236, 236, 236, 236, 236, 237, 237,
   237, 237, 237, 237, 237, 237, 237, 237]

/-- Bytes 64..127 of `GREY_LUT_DEFAULT`, eight a row as R16 prints them. -/
def greyLutDefaultQuarter1 : Vector Byte 64 :=
  #v[
   238, 238, 238, 238, 238, 238, 238, 238,
   238, 238, 239, 239, 239, 239, 239, 239,
   239, 239, 239, 239, 240, 240, 240, 240,
   240, 240, 240, 240, 59, 59, 59, 59,
   59, 241, 241, 241, 241, 241, 241, 241,
   242, 242, 242, 242, 242, 242, 242, 242,
   242, 242, 243, 243, 243, 243, 243, 243,
   243, 243, 243, 243, 244, 244, 244, 244]

/-- Bytes 128..191 of `GREY_LUT_DEFAULT`, eight a row as R16 prints them. -/
def greyLutDefaultQuarter2 : Vector Byte 64 :=
  #v[
   244, 244, 244, 244, 102, 102, 102, 102,
   102, 245, 245, 245, 245, 245, 245, 245,
   246, 246, 246, 246, 246, 246, 246, 246,
   246, 246, 247, 247, 247, 247, 247, 247,
   247, 247, 247, 247, 248, 248, 248, 248,
   248, 248, 248, 248, 145, 145, 145, 145,
   145, 249, 249, 249, 249, 249, 249, 249,
   250, 250, 250, 250, 250, 250, 250, 250]

/-- Bytes 192..255 of `GREY_LUT_DEFAULT`, eight a row as R16 prints them. -/
def greyLutDefaultQuarter3 : Vector Byte 64 :=
  #v[
   250, 250, 251, 251, 251, 251, 251, 251,
   251, 251, 251, 251, 252, 252, 252, 252,
   252, 252, 252, 252, 188, 188, 188, 188,
   188, 253, 253, 253, 253, 253, 253, 253,
   254, 254, 254, 254, 254, 254, 254, 254,
   254, 254, 255, 255, 255, 255, 255, 255,
   255, 255, 255, 255, 255, 255, 255, 231,
   231, 231, 231, 231, 231, 231, 231, 231]

/-- `GREY_LUT_DEFAULT`: the spec's own table, not claimed equal to the repository's (R16, D6; log 3). -/
def greyLutDefault : Vector Byte 256 :=
  greyLutDefaultQuarter0 ++ greyLutDefaultQuarter1 ++ greyLutDefaultQuarter2 ++ greyLutDefaultQuarter3

/-- The 30 palette indices that stand for a grey and are no system colour, in ascending grey level's two
groups: the six cube greys, then the ramp 232..255 (R13). -/
def greyIndices : List Byte :=
  [16, 59, 102, 145, 188, 231] ++ (List.range 24).map fun k => BitVec.ofNat 8 (232 + k)

/-- R13: every entry is one of the 30 grey indices. -/
abbrev GreyLutInRange (t : Vector Byte 256) : Prop := ∀ v : Fin 256, t[v] ∈ greyIndices

/-- R14: the entry at `8 + 10*k` is `232 + k`, for `k` in 0..23. -/
abbrev GreyLutRampPinned (t : Vector Byte 256) : Prop :=
  ∀ k : Fin 24, t[8 + 10 * k.val] = BitVec.ofNat 8 (232 + k.val)

/-- R15: the entries at the six cube greys. -/
abbrev GreyLutCubePinned (t : Vector Byte 256) : Prop :=
  t[0] = 16 ∧ t[95] = 59 ∧ t[135] = 102 ∧ t[175] = 145 ∧ t[215] = 188 ∧ t[255] = 231

/-- A greyscale table that the spec allows: R13, R14 and R15, "exactly" what a model may assume of it
(R12). -/
abbrev GreyLutAdmissible (t : Vector Byte 256) : Prop :=
  GreyLutInRange t ∧ GreyLutRampPinned t ∧ GreyLutCubePinned t

end Sys2Proof.Machine
end

