-- ==== Sys2Proof/Machine/State.lean ====
section
/-! DEFINITION. State, the reasons a step can stop, and reset (`10_state.md` R4 to R7, R17, R18,
`60_exceptions.md` R60, `30_encoding.md` R38, R39). -/

namespace Sys2Proof.Machine

open Sys2Proof

/-- The block holds no mutable state (R4 to R7). What this record holds is the block's build
parameters, which no operation changes, and the requester's record of the run in progress at the port
(R70): neither list is storage of the block, and no operation reads either (log 1, log 2). -/
structure State where
  /-- What the block was built with (R2, R12, R69). -/
  build : Build
  /-- Requests presented and not yet answered, oldest first: the MODEL's own field (R70, R72; log 1). -/
  requests : List Request
  /-- Responses given, oldest first: the MODEL's own field (R33, R70, R72; log 1). -/
  responses : List Response
deriving DecidableEq, Repr

/-- The faults of the block: none. "The list of exception causes is empty" (R60), so this type has no
constructor and no step can end in a fault (log 7). -/
inductive Fault where
deriving DecidableEq, Repr

/-- The requests the model gives no meaning. -/
inductive Refusal where
  /-- An instruction without a meaning in this model. No arm of `exec` raises it: all ten operations
  are modelled. Safe. -/
  | notModelled (mnemonic : String)
  /-- Raised by `step` when the request's operation code is 10..15, which are reserved: the spec
  defines no response (R38, D4, U1). Safe: nothing can be proved of a run that contains one. -/
  | reservedOperation (op : BitVec 4)
  /-- Raised by CUBEVAL of 6 or 7, the one reserved operand (R39, D8, U2). Safe, in the same way. -/
  | reservedCoordinate (k : BitVec 3)
deriving DecidableEq, Repr

/-- The first instant at which a request can be presented (R18, R68): the block built with the spec's
default table and threshold sense (R16, R2; log 3, log 4), no request presented, none answered
(log 1). -/
def State.reset : State :=
  { build := { greyLut := greyLutDefault, threshSense := .upper }
    requests := []
    responses := [] }

end Sys2Proof.Machine
end

