-- ==== Sys2Proof/Machine/Ops.lean ====
section
/-! DEFINITION. The operations over tables and the port that the meanings share: the read of one entry
of one of the six read-only tables (`20_memory.md` R19, R20, R22, R23), and giving, taking and
presenting at the port (`30_encoding.md` R32, R33, `70_reset_and_hazards.md` R70, R72). There is no
write, no exception entry and no return from one (R23, R60, R64). -/

namespace Sys2Proof.Machine

open Sys2Proof

/-- The six address spaces (R19). -/
inductive Space where
  | sysColour
  | cubeValue
  | greyLut
  | threshR
  | threshG
  | threshB
deriving DecidableEq, Repr

/-- How many entries a space has; its legal addresses are those below (R19). -/
abbrev Space.entries : Space → Nat
  | .sysColour => 16
  | .cubeValue => 6
  | .greyLut => 256
  | .threshR => 5
  | .threshG => 5
  | .threshB => 5

/-- How many bits an entry of a space has (R19). -/
abbrev Space.width : Space → Nat
  | .sysColour => 24
  | .cubeValue => 8
  | .greyLut => 8
  | .threshR => 8
  | .threshG => 8
  | .threshB => 8

/-- `MemRead(S, a)`: the whole entry at address `a` (R19, R22, R23). The address is bounded by its type,
as every address an operation computes is (R20). -/
def memRead (b : Build) : (S : Space) → Fin S.entries → BitVec S.width
  | .sysColour, a => sysColourTable.get a
  | .cubeValue, a => cubeValueTable.get a
  | .greyLut, a => b.greyLut.get a
  | .threshR, a => threshRTable.get a
  | .threshG, a => threshGTable.get a
  | .threshB, a => threshBTable.get a

/-- The state in which the response `r` has been given, after all earlier ones (R33, R72); nothing else
changes (R6, R23). -/
def State.respond (s : State) (r : Response) : State :=
  { s with responses := s.responses ++ [r] }

/-- `rsp <- v`: the operation ends, its response is given, and no other effect happens (R6, R70). -/
def answer (s : State) (r : Response) : Host.Outcome State Fault Refusal :=
  .next (s.respond r)

/-- The oldest request not yet answered and the state without it, if there is one (R70, R72). -/
def State.takeRequest (s : State) : Option (Request × State) :=
  match s.requests with
  | [] => none
  | w :: rest => some (w, { s with requests := rest })

/-- The state in which `w` is the next request the block answers. -/
def State.presentNext (s : State) (w : Request) : State :=
  { s with requests := w :: s.requests }

/-- The state in which the requester has presented `w` after every request already presented (R70). -/
def State.present (s : State) (w : Request) : State :=
  { s with requests := s.requests ++ [w] }

/-- The step with no request presented: the block is idle and that is not observable (R66, R70; log 5). -/
def idle (s : State) : Host.Outcome State Fault Refusal := .next s

/-- What the model answers for a word that is no operation (R38): it refuses, by name. -/
def refuseWord : DecodeError → Host.Outcome State Fault Refusal
  | .reservedOperation op => .refused (.reservedOperation op)

end Sys2Proof.Machine
end

