-- ==== Sys2Proof/Machine/CubeIndexing.lean ====
section
/-! DEFINITION. Cube indexing: CIDXR, CIDXG, CIDXB and CUBEIDX (`43_cube_indexing.md` R52 to R56). -/

namespace Sys2Proof.Machine

open Sys2Proof

/-- Whether the byte `v` counts the threshold `t` (R52): `t <= v` with `THRESH_SENSE = upper`, and
`t < v` with `lower` (D7). -/
def passes : ThreshSense → Byte → Byte → Bool
  | .upper, t, v => decide (t.toNat ≤ v.toNat)
  | .lower, t, v => decide (t.toNat < v.toNat)

/-- `CubeIndex(v, T)` (R52): how many of the five thresholds the byte counts. -/
def cubeIndex (sense : ThreshSense) (T : Fin 5 → Byte) (v : Byte) : Coord :=
  ⟨([0, 1, 2, 3, 4] : List (Fin 5)).countP fun j => passes sense (T j) v,
    Nat.lt_succ_of_le List.countP_le_length⟩

/-- `CubeIndexR(v)` (R53). -/
def cubeIndexR (b : Build) (v : Byte) : Coord := cubeIndex b.threshSense (memRead b .threshR) v

/-- `CubeIndexG(v)` (R54). -/
def cubeIndexG (b : Build) (v : Byte) : Coord := cubeIndex b.threshSense (memRead b .threshG) v

/-- `CubeIndexB(v)` (R55). -/
def cubeIndexB (b : Build) (v : Byte) : Coord := cubeIndex b.threshSense (memRead b .threshB) v

/-- The palette index of a coordinate triple (R30). -/
def composeCube (kr kg kb : Coord) : Byte :=
  BitVec.ofNat 8 (16 + 36 * kr.val + 6 * kg.val + kb.val)

/-- `CubeCandidate(c)` (R56). -/
def cubeCandidate (b : Build) (c : Rgb24) : Byte :=
  composeCube (cubeIndexR b (red c)) (cubeIndexG b (green c)) (cubeIndexB b (blue c))

/-- The response that carries a coordinate (R34: `rsp[2:0]`). -/
def coordResponse (k : Coord) : Response := zext32 (BitVec.ofNat 3 k.val)

/-- CIDXR (R53). -/
def execCidxr (v : Byte) (s : State) : Host.Outcome State Fault Refusal :=
  answer s (coordResponse (cubeIndexR s.build v))

/-- CIDXG (R54). -/
def execCidxg (v : Byte) (s : State) : Host.Outcome State Fault Refusal :=
  answer s (coordResponse (cubeIndexG s.build v))

/-- CIDXB (R55). -/
def execCidxb (v : Byte) (s : State) : Host.Outcome State Fault Refusal :=
  answer s (coordResponse (cubeIndexB s.build v))

/-- CUBEIDX (R56). -/
def execCubeidx (c : Rgb24) (s : State) : Host.Outcome State Fault Refusal :=
  answer s (zext32 (cubeCandidate s.build c))

end Sys2Proof.Machine
end

