-- ==== Sys2Proof/Machine/DistanceComparator.lean ====
section
/-! DEFINITION. The sub-block `colour_distance_comparator`: DIST, and the comparator of ENC
(`42_distance.md` R48 to R51). -/

namespace Sys2Proof.Machine

open Sys2Proof

/-- `sq(a)` (`00_scope.md` section 5). -/
def squared (a : Int) : Int := a * a

/-- The formula of R48 over exact integers (R3). -/
def distanceScore (x y : Rgb24) : Int :=
  let rSum : Int := (red x).toNat + (red y).toNat
  let dr : Int := (red x).toNat - (red y).toNat
  let dg : Int := (green x).toNat - (green y).toNat
  let db : Int := (blue x).toNat - (blue y).toNat
  (distRBase + rSum) * squared dr + distGW * squared dg + (distBBase - rSum) * squared db

/-- `Distance(x, y)` (R48): the score, which is never negative (R50). -/
def distance (x y : Rgb24) : Nat := (distanceScore x y).toNat

/-- `Select(gi, gd, ci, cd)` (R51): the grey candidate only when strictly nearer; a tie goes to the cube
candidate (`90_conflicts.md` C3). -/
def select (gi : Byte) (gd : Nat) (ci : Byte) (cd : Nat) : Byte := if gd < cd then gi else ci

/-- DIST (R48). -/
def execDist (x y : Rgb24) (s : State) : Host.Outcome State Fault Refusal :=
  answer s (BitVec.ofNat 32 (distance x y))

end Sys2Proof.Machine
end

