-- ==== Sys2Proof/Machine/GreyscaleLutMapper.lean ====
section
/-! DEFINITION. The sub-block `greyscale_lut_mapper`: LUM and GLUT, and the grey candidate of ENC
(`41_luminance_greylut.md` R45 to R47). -/

namespace Sys2Proof.Machine

open Sys2Proof

/-- The weighted channel sum of R45, an exact integer of at most 255 * 2^24. -/
def luminanceSum (c : Rgb24) : Nat :=
  lumWR * (red c).toNat + lumWG * (green c).toNat + lumWB * (blue c).toNat

/-- `Luminance(c)` (R45): the sum shifted right by 24, rounding down. -/
def luminance (c : Rgb24) : Byte := BitVec.ofNat 8 (luminanceSum c >>> lumShift)

/-- `GreyIndex(v)` (R46). -/
def greyIndex (b : Build) (v : Byte) : Byte := memRead b .greyLut ⟨v.toNat, v.isLt⟩

/-- `GreyCandidate(c)` (R47). -/
def greyCandidate (b : Build) (c : Rgb24) : Byte := greyIndex b (luminance c)

/-- LUM (R45). -/
def execLum (c : Rgb24) (s : State) : Host.Outcome State Fault Refusal :=
  answer s (zext32 (luminance c))

/-- GLUT (R46). -/
def execGlut (v : Byte) (s : State) : Host.Outcome State Fault Refusal :=
  answer s (zext32 (greyIndex s.build v))

end Sys2Proof.Machine
end

