-- ==== Sys2Proof/Machine/PaletteDecoder.lean ====
section
/-! DEFINITION. The sub-block `palette_decoder`: CUBEVAL and DEC (`40_palette_decode.md` R43, R44). -/

namespace Sys2Proof.Machine

open Sys2Proof

/-- `CubeValue(k)` (R43). -/
def cubeValue (b : Build) (k : Coord) : Byte := memRead b .cubeValue k

/-- `Decode(i)` (R44): a system colour below 16, a cube colour below 232, a ramp grey from there on. -/
def paletteDecode (b : Build) (i : Byte) : Rgb24 :=
  let n := i.toNat
  if hSys : n < 16 then
    memRead b .sysColour ⟨n, hSys⟩
  else if hCube : n < 232 then
    let x := n - 16
    let kr : Coord := ⟨x / 36, by omega⟩
    let kg : Coord := ⟨(x / 6) % 6, by omega⟩
    let kb : Coord := ⟨x % 6, by omega⟩
    rgb (cubeValue b kr) (cubeValue b kg) (cubeValue b kb)
  else
    let grey := BitVec.ofNat 8 ((n - 232) * 10 + 8)
    rgb grey grey grey

/-- CUBEVAL (R43): the coordinates 6 and 7 are reserved (R39). -/
def execCubeval (k : BitVec 3) (s : State) : Host.Outcome State Fault Refusal :=
  if h : k.toNat < 6 then
    answer s (zext32 (cubeValue s.build ⟨k.toNat, h⟩))
  else
    .refused (.reservedCoordinate k)

/-- DEC (R44). -/
def execDec (i : Byte) (s : State) : Host.Outcome State Fault Refusal :=
  answer s (zext32 (paletteDecode s.build i))

end Sys2Proof.Machine
end

