-- ==== Sys2Proof/Machine/PaletteEncoder.lean ====
section
/-! DEFINITION. The top level: ENC (`44_palette_encode.md` R57 to R59). -/

namespace Sys2Proof.Machine

open Sys2Proof

/-- The general path of ENC, steps 2 to 6 of R57: the nearer of the grey and the cube candidate. -/
def encodeGeneral (b : Build) (c : Rgb24) : Byte :=
  let gi := greyCandidate b c
  let gd := distance c (paletteDecode b gi)
  let ci := cubeCandidate b c
  let cd := distance c (paletteDecode b ci)
  select gi gd ci cd

/-- `Encode(c)` (R57): an exact grey is looked up at once; any other colour takes the general path. -/
def paletteEncode (b : Build) (c : Rgb24) : Byte :=
  if red c = green c ∧ green c = blue c then greyIndex b (red c) else encodeGeneral b c

/-- ENC (R57). -/
def execEnc (c : Rgb24) (s : State) : Host.Outcome State Fault Refusal :=
  answer s (zext32 (paletteEncode s.build c))

end Sys2Proof.Machine
end

