-- ==== Sys2Proof/Machine/Dispatch.lean ====
section
/-! DEFINITION. One arm per operation of the opcode table (`30_encoding.md` R35). -/

namespace Sys2Proof.Machine

open Sys2Proof

/-- The operation `i` at the state `s`: one response, or a refusal (R39). -/
def exec (i : Instr) (s : State) : Host.Outcome State Fault Refusal :=
  match i with
  | .dec n => Sys2Proof.Machine.execDec n s
  | .enc c => Sys2Proof.Machine.execEnc c s
  | .cubeval k => Sys2Proof.Machine.execCubeval k s
  | .lum c => Sys2Proof.Machine.execLum c s
  | .dist x y => Sys2Proof.Machine.execDist x y s
  | .cidxr v => Sys2Proof.Machine.execCidxr v s
  | .cidxg v => Sys2Proof.Machine.execCidxg v s
  | .cidxb v => Sys2Proof.Machine.execCidxb v s
  | .glut v => Sys2Proof.Machine.execGlut v s
  | .cubeidx c => Sys2Proof.Machine.execCubeidx c s

end Sys2Proof.Machine
end

