-- ==== Sys2Proof/Machine/Step.lean ====
section
/-! DEFINITION. One step: the block answers the oldest request presented (`30_encoding.md` R32,
`70_reset_and_hazards.md` R70, R72). There is no program counter and nothing is fetched (R5, R27): the
requester presents the words. -/

namespace Sys2Proof.Machine

open Sys2Proof

/-- Answer the oldest request: it leaves the list of requests, is decoded, and its operation runs. With
no request the block is idle; a word that is no operation is refused. -/
def step (s : State) : Host.Outcome State Fault Refusal :=
  match s.takeRequest with
  | none => idle s
  | some (w, s') =>
    match decode w with
    | .ok i => exec i s'
    | .error e => refuseWord e

/-- `s` with the request whose bits are `w` presented so that the very next step answers it
(log 11, log 15). -/
def State.withFetchWord (s : State) (nbits w : Nat) : State :=
  s.presentNext (BitVec.ofNat 52 (w % 2 ^ nbits))

end Sys2Proof.Machine
end

