-- ==== Sys2Proof/Machine/Assembler.lean ====
section
/-! DEFINITION. The textual form of requests (`30_encoding.md` R41) and the line forms of the
pseudo-operation CONVERT (R42), over lists of characters. A line that is not in the syntax has no
meaning: "that check belongs to the assembler or CLI, never to the block" (R42, R61). The spellings
R41 leaves open are fixed in log 14. -/

namespace Sys2Proof.Machine

open Sys2Proof

/-- What a line of R41 is cut into. -/
inductive Token where
  /-- A maximal run of letters, digits and underscores. -/
  | word (cs : List Char)
  | comma
  | semicolon
  /-- The mark `->` of a response line. -/
  | arrow
  /-- Any other character; it stands in no request, but may stand in a comment. -/
  | other (c : Char)
deriving DecidableEq, Repr

/-- A line of R41 and R42. -/
inductive Line where
  /-- One request. -/
  | request (i : Instr)
  /-- `-> value`: the response to the request above. -/
  | response (r : Response)
  /-- `CONVERT i` (R42). -/
  | convertIndex (i : Byte)
  /-- `CONVERT r, g, b` (R42). -/
  | convertColour (c : Rgb24)
deriving DecidableEq, Repr

/-- The characters of a word. -/
def isWordChar (c : Char) : Bool := c.isAlphanum || c == '_'

/-- The word read so far (`acc`, last character first) before the tokens that follow it. -/
def flushWord (acc : List Char) (ts : List Token) : List Token :=
  match acc with
  | [] => ts
  | _ => .word acc.reverse :: ts

/-- The tokens of a line, `acc` being the word read so far. A space separates words; a tab or any other
character is no space (DESIGN CHOICE, log 14). -/
def lexLine : List Char → List Char → List Token
  | [], acc => flushWord acc []
  | '-' :: '>' :: cs, acc => flushWord acc (.arrow :: lexLine cs [])
  | c :: cs, acc =>
    if isWordChar c then lexLine cs (c :: acc)
    else if c = ' ' then flushWord acc (lexLine cs [])
    else if c = ',' then flushWord acc (.comma :: lexLine cs [])
    else if c = ';' then flushWord acc (.semicolon :: lexLine cs [])
    else flushWord acc (.other c :: lexLine cs [])

/-- The value of a decimal digit. -/
def decimalDigit (c : Char) : Option Nat :=
  if '0' ≤ c ∧ c ≤ '9' then some (c.toNat - 48) else none

/-- The value of a hexadecimal digit, in either case. -/
def hexDigit (c : Char) : Option Nat :=
  if '0' ≤ c ∧ c ≤ '9' then some (c.toNat - 48)
  else if 'A' ≤ c ∧ c ≤ 'F' then some (c.toNat - 55)
  else if 'a' ≤ c ∧ c ≤ 'f' then some (c.toNat - 87)
  else none

/-- The number a list of digits stands for in a base, `acc` being the number read so far. -/
def digitsValue (digit : Char → Option Nat) (base : Nat) : List Char → Nat → Option Nat
  | [], acc => some acc
  | c :: cs, acc =>
    match digit c with
    | some d => digitsValue digit base cs (acc * base + d)
    | none => none

/-- A decimal numeral. Leading zeros change nothing, and any number of them is accepted (DESIGN CHOICE:
R41 says only "decimal 0..255"; log 14). -/
def decimalNumeral (cs : List Char) : Option Nat :=
  match cs with
  | [] => none
  | _ => digitsValue decimalDigit 10 cs 0

/-- A hexadecimal numeral `0x…` of exactly `n` digits. -/
def hexNumeral (n : Nat) : List Char → Option Nat
  | '0' :: 'x' :: ds => if ds.length = n then digitsValue hexDigit 16 ds 0 else none
  | _ => none

/-- A number as a word of `w` bits, if it fits. -/
def fits (w : Nat) (n : Option Nat) : Option (BitVec w) :=
  match n with
  | some k => if k < 2 ^ w then some (BitVec.ofNat w k) else none
  | none => none

/-- A decimal byte 0..255. -/
def decimalByte (cs : List Char) : Option Byte := fits 8 (decimalNumeral cs)

/-- DEC's operand: decimal 0..255 or `0x00`..`0xFF`. -/
def indexOperand (cs : List Char) : Option Byte :=
  match decimalByte cs with
  | some i => some i
  | none => fits 8 (hexNumeral 2 cs)

/-- CUBEVAL's operand: 0..5. -/
def coordinateOperand (cs : List Char) : Option (BitVec 3) :=
  match decimalNumeral cs with
  | some k => if k < 6 then some (BitVec.ofNat 3 k) else none
  | none => none

/-- A response value: decimal, or `0x` and eight digits. -/
def responseValue (cs : List Char) : Option Response :=
  match fits 32 (decimalNumeral cs) with
  | some r => some r
  | none => fits 32 (hexNumeral 8 cs)

/-- A colour operand and the tokens after it: three decimal bytes, or one packed colour `0xRRGGBB`. -/
def colourOperand : List Token → Option (Rgb24 × List Token)
  | .word r :: .comma :: .word g :: .comma :: .word b :: rest =>
    match decimalByte r, decimalByte g, decimalByte b with
    | some r, some g, some b => some (rgb r g b, rest)
    | _, _, _ => none
  | .word h :: rest =>
    match fits 24 (hexNumeral 6 h) with
    | some c => some (c, rest)
    | none => none
  | _ => none

/-- What may follow a complete line: nothing, or a comment from a `;` on (R41; for lines that are no
request, and for a `;` without a space after it, a DESIGN CHOICE: log 14). -/
def endsLine : List Token → Bool
  | [] => true
  | .semicolon :: _ => true
  | _ => false

/-- A line with one colour operand and nothing but a comment after it. -/
def colourLine (make : Rgb24 → Line) (ts : List Token) : Option Line :=
  match colourOperand ts with
  | some (c, rest) => if endsLine rest then some (make c) else none
  | none => none

/-- A DIST line's operands: the first `;` separates the two colours (R41). Each colour may take either
form, one in bytes beside one packed as well (DESIGN CHOICE: R41 shows both in one form; log 14). -/
def distLine (ts : List Token) : Option Line :=
  match colourOperand ts with
  | some (x, .semicolon :: rest) => colourLine (fun y => .request (.dist x y)) rest
  | _ => none

/-- A line with one operand word and nothing but a comment after it. -/
def wordLine {α : Type} (read : List Char → Option α) (make : α → Line) : List Token → Option Line
  | .word cs :: rest =>
    match read cs with
    | some v => if endsLine rest then some (make v) else none
    | none => none
  | _ => none

/-- CONVERT: one index, or a colour as three decimal bytes (R42). -/
def convertLine : List Token → Option Line
  | .word r :: .comma :: rest => colourLine .convertColour (.word r :: .comma :: rest)
  | ts => wordLine decimalByte .convertIndex ts

/-- The mnemonics of R35, and the two aliases and CONVERT of R41 and R42. -/
inductive Mnemonic where
  | dec | enc | cubeval | lum | dist | cidxr | cidxg | cidxb | glut | cubeidx | convert
deriving DecidableEq, Repr

/-- The spelling of every mnemonic and alias (R35, R41, R42). -/
def spellings : List (List Char × Mnemonic) :=
  [(['D', 'E', 'C'], .dec), (['E', 'N', 'C'], .enc),
   (['C', 'U', 'B', 'E', 'V', 'A', 'L'], .cubeval), (['L', 'U', 'M'], .lum),
   (['D', 'I', 'S', 'T'], .dist), (['C', 'I', 'D', 'X', 'R'], .cidxr),
   (['C', 'I', 'D', 'X', 'G'], .cidxg), (['C', 'I', 'D', 'X', 'B'], .cidxb),
   (['G', 'L', 'U', 'T'], .glut), (['C', 'U', 'B', 'E', 'I', 'D', 'X'], .cubeidx),
   (['C', 'O', 'N', 'V', 'E', 'R', 'T'], .convert)] ++
  [(['d', 'e', 'c', 'o', 'd', 'e', '_', 'i', 'n', 'd', 'e', 'x', '_', 't', 'o', '_', 'r', 'g', 'b'], .dec),
   (['e', 'n', 'c', 'o', 'd', 'e', '_', 'r', 'g', 'b', '_', 't', 'o', '_', 'i', 'n', 'd', 'e', 'x'], .enc)]

/-- The line a mnemonic and the tokens after it make (R41). -/
def operandsOf : Mnemonic → List Token → Option Line
  | .dec, ts => wordLine indexOperand (fun i => .request (.dec i)) ts
  | .enc, ts => colourLine (fun c => .request (.enc c)) ts
  | .cubeval, ts => wordLine coordinateOperand (fun k => .request (.cubeval k)) ts
  | .lum, ts => colourLine (fun c => .request (.lum c)) ts
  | .dist, ts => distLine ts
  | .cidxr, ts => wordLine decimalByte (fun v => .request (.cidxr v)) ts
  | .cidxg, ts => wordLine decimalByte (fun v => .request (.cidxg v)) ts
  | .cidxb, ts => wordLine decimalByte (fun v => .request (.cidxb v)) ts
  | .glut, ts => wordLine decimalByte (fun v => .request (.glut v)) ts
  | .cubeidx, ts => colourLine (fun c => .request (.cubeidx c)) ts
  | .convert, ts => convertLine ts

/-- What a line of text means (R41, R42), if it is in the syntax. A comment may follow a response line and
a CONVERT line too (DESIGN CHOICE: R41 speaks of comments after a complete request only; log 14). -/
def assemble (text : List Char) : Option Line :=
  match lexLine text [] with
  | .arrow :: ts => wordLine responseValue .response ts
  | .word m :: ts =>
    match spellings.lookup m with
    | some mn => operandsOf mn ts
    | none => none
  | _ => none

/-- A digit 0..15 in upper case. -/
def upperDigit (d : Nat) : Char :=
  ['0', '1', '2', '3', '4', '5', '6', '7', '8', '9', 'A', 'B', 'C', 'D', 'E', 'F'].getD d '0'

/-- A digit 0..15 in lower case. -/
def lowerDigit (d : Nat) : Char :=
  ['0', '1', '2', '3', '4', '5', '6', '7', '8', '9', 'a', 'b', 'c', 'd', 'e', 'f'].getD d '0'

/-- A colour as six hexadecimal digits, the red byte first (R28, R42). -/
def sixHexDigits (digit : Nat → Char) (c : Rgb24) : List Char :=
  [digit (c.toNat / 16 ^ 5), digit (c.toNat / 16 ^ 4 % 16), digit (c.toNat / 16 ^ 3 % 16),
   digit (c.toNat / 16 ^ 2 % 16), digit (c.toNat / 16 % 16), digit (c.toNat % 16)]

/-- A colour operand as R41 writes it: `0xRRGGBB`. -/
def colourText (c : Rgb24) : List Char := ['0', 'x'] ++ sixHexDigits upperDigit c

/-- A number below 1000 in decimal, without leading zeros. -/
def decimalText (n : Nat) : List Char :=
  if n < 10 then [upperDigit n]
  else if n < 100 then [upperDigit (n / 10), upperDigit (n % 10)]
  else [upperDigit (n / 100), upperDigit (n / 10 % 10), upperDigit (n % 10)]

/-- The text of a request (R41), colours in their packed form. -/
def render : Instr → List Char
  | .dec i => ['D', 'E', 'C', ' '] ++ decimalText i.toNat
  | .enc c => ['E', 'N', 'C', ' '] ++ colourText c
  | .cubeval k => ['C', 'U', 'B', 'E', 'V', 'A', 'L', ' '] ++ decimalText k.toNat
  | .lum c => ['L', 'U', 'M', ' '] ++ colourText c
  | .dist x y => ['D', 'I', 'S', 'T', ' '] ++ colourText x ++ [' ', ';', ' '] ++ colourText y
  | .cidxr v => ['C', 'I', 'D', 'X', 'R', ' '] ++ decimalText v.toNat
  | .cidxg v => ['C', 'I', 'D', 'X', 'G', ' '] ++ decimalText v.toNat
  | .cidxb v => ['C', 'I', 'D', 'X', 'B', ' '] ++ decimalText v.toNat
  | .glut v => ['G', 'L', 'U', 'T', ' '] ++ decimalText v.toNat
  | .cubeidx c => ['C', 'U', 'B', 'E', 'I', 'D', 'X', ' '] ++ colourText c

end Sys2Proof.Machine
end

