-- ==== Sys2Proof/Machine/Requester.lean ====
section
/-! DEFINITION. The port seen from the requester's side: the response function `F` of
`30_encoding.md` R32, and the pseudo-operation CONVERT of R42, which is made of requests. -/

namespace Sys2Proof.Machine

open Sys2Proof

/-- `F` (R32): the response to one request presented alone; none where the spec defines none (R38,
R39). -/
def responseTo (b : Build) (q : Request) : Option Response :=
  match step { build := b, requests := [q], responses := [] } with
  | .next t => t.responses.head?
  | .fault _ => none
  | .refused _ => none

/-- `CONVERT i` expands to `DEC i` (R42). -/
def convertIndex (b : Build) (i : Byte) : Option Rgb24 :=
  match responseTo b (encode (.dec i)) with
  | some r => some (r.setWidth 24)
  | none => none

/-- `CONVERT r, g, b` expands to `ENC r, g, b`, giving the index `n`, then `DEC n`: two requests, the
requester carrying `n` from the first response to the second request (R42). -/
def convertColour (b : Build) (c : Rgb24) : Option (Byte × Rgb24) :=
  match responseTo b (encode (.enc c)) with
  | some r =>
    let n : Byte := r.setWidth 8
    match convertIndex b n with
    | some d => some (n, d)
    | none => none
  | none => none

/-- A colour as CONVERT prints it: six hex digits (R42; lower case as in `95_test_vectors.md` P1,
log 14). -/
def printColour (c : Rgb24) : List Char := sixHexDigits lowerDigit c

end Sys2Proof.Machine
end

