-- ==== Sys2Proof/Safety.lean ====
section
/-! DEFINITION. What the statements mean by a defined request, a safe run and the invariant. -/

namespace Sys2Proof

open Sys2Proof.Machine

/-- A request the spec defines: its operation code is 0..9, and it is not CUBEVAL of 6 or 7
(`30_encoding.md` R38 to R40). -/
abbrev DefinedRequest (w : Request) : Prop :=
  (opField w).toNat < 10 ∧ ((opField w).toNat = 2 → (coordOperand w).toNat < 6)

/-- A run whose requester keeps R70: every request it has presented is defined. -/
abbrev SafeRun (s : State) : Prop := ∀ w ∈ s.requests, DefinedRequest w

/-- The largest response of any operation, DIST's maximum `4606 * 65025` (`42_distance.md` R50). -/
def maxResponse : Nat := 299505150

/-- The invariant: the block was built with a greyscale table that R13 to R15 allow, and every response
given is in the range R33 and R50 give (so its bits 31..29 are zero). -/
abbrev Inv (s : State) : Prop :=
  GreyLutAdmissible s.build.greyLut ∧ ∀ r ∈ s.responses, r.toNat ≤ maxResponse

/-- The operation `i`, at `s`, ends with the response `r` and changes nothing else (R6, R33). -/
abbrev Answers (i : Instr) (s : State) (r : Response) : Prop :=
  exec i s = .next { s with responses := s.responses ++ [r] }

end Sys2Proof
end

