-- ==== Sys2Proof/Certificates/Slice0/Obligations.lean ====
section
/-! DEFINITION. The statements about the model. Each names the rule of `spec/` it formalises. `s` is any
state: any greyscale table and either threshold sense, unless a hypothesis says otherwise. -/

open Sys2Proof Sys2Proof.Machine

/-! ### Encoding -/

/-- The decoder reads back every operation from its own request word, every operand at every value
(`30_encoding.md` R32, R34, R35). -/
def Obligations.DecodeReadsBackEveryEncodedInstruction : Prop :=
  ∀ i : Instr, decode (encode i) = .ok i

/-- The request word of each operation as a number, `op * 2^48 + a * 2^24 + b` with the unread bits zero
(R32, R34, R35, R41). -/
def Obligations.RequestWordIsOpThenAThenB : Prop :=
  (∀ n, (encode (.dec n)).toNat = 0 * 2 ^ 48 + n.toNat * 2 ^ 24) ∧
  (∀ c, (encode (.enc c)).toNat = 1 * 2 ^ 48 + c.toNat * 2 ^ 24) ∧
  (∀ k, (encode (.cubeval k)).toNat = 2 * 2 ^ 48 + k.toNat * 2 ^ 24) ∧
  (∀ c, (encode (.lum c)).toNat = 3 * 2 ^ 48 + c.toNat * 2 ^ 24) ∧
  (∀ x y, (encode (.dist x y)).toNat = 4 * 2 ^ 48 + x.toNat * 2 ^ 24 + y.toNat) ∧
  (∀ v, (encode (.cidxr v)).toNat = 5 * 2 ^ 48 + v.toNat * 2 ^ 24) ∧
  (∀ v, (encode (.cidxg v)).toNat = 6 * 2 ^ 48 + v.toNat * 2 ^ 24) ∧
  (∀ v, (encode (.cidxb v)).toNat = 7 * 2 ^ 48 + v.toNat * 2 ^ 24) ∧
  (∀ v, (encode (.glut v)).toNat = 8 * 2 ^ 48 + v.toNat * 2 ^ 24) ∧
  (∀ c, (encode (.cubeidx c)).toNat = 9 * 2 ^ 48 + c.toNat * 2 ^ 24)

/-- The operation a word names and the operand bits read from it, as arithmetic on the word's number
(R32, R34, R35, R38). -/
def Obligations.DecodeSelectsByOpAndReadsTheListedBits : Prop :=
  ∀ w : Request,
    let op := w.toNat / 2 ^ 48
    let a := w.toNat / 2 ^ 24 % 2 ^ 24
    let b := w.toNat % 2 ^ 24
    decode w =
      if op = 0 then .ok (.dec (BitVec.ofNat 8 (a % 2 ^ 8)))
      else if op = 1 then .ok (.enc (BitVec.ofNat 24 a))
      else if op = 2 then .ok (.cubeval (BitVec.ofNat 3 (a % 2 ^ 3)))
      else if op = 3 then .ok (.lum (BitVec.ofNat 24 a))
      else if op = 4 then .ok (.dist (BitVec.ofNat 24 a) (BitVec.ofNat 24 b))
      else if op = 5 then .ok (.cidxr (BitVec.ofNat 8 (a % 2 ^ 8)))
      else if op = 6 then .ok (.cidxg (BitVec.ofNat 8 (a % 2 ^ 8)))
      else if op = 7 then .ok (.cidxb (BitVec.ofNat 8 (a % 2 ^ 8)))
      else if op = 8 then .ok (.glut (BitVec.ofNat 8 (a % 2 ^ 8)))
      else if op = 9 then .ok (.cubeidx (BitVec.ofNat 24 a))
      else .error (.reservedOperation (BitVec.ofNat 4 op))

/-- R36: two requests that agree on `op` and on the operand bits that R34 lists for it are answered
alike. -/
def Obligations.BitsNotReadDoNotAffectTheResponse : Prop :=
  ∀ (s : State) (w w' : Request),
    w.toNat / 2 ^ 48 = w'.toNat / 2 ^ 48 →
    (w.toNat / 2 ^ 48 ∈ [0, 5, 6, 7, 8] →
      w.toNat / 2 ^ 24 % 2 ^ 8 = w'.toNat / 2 ^ 24 % 2 ^ 8) →
    (w.toNat / 2 ^ 48 = 2 → w.toNat / 2 ^ 24 % 2 ^ 3 = w'.toNat / 2 ^ 24 % 2 ^ 3) →
    (w.toNat / 2 ^ 48 ∈ [1, 3, 4, 9] → w.toNat / 2 ^ 24 = w'.toNat / 2 ^ 24) →
    (w.toNat / 2 ^ 48 = 4 → w.toNat % 2 ^ 24 = w'.toNat % 2 ^ 24) →
    step (s.presentNext w) = step (s.presentNext w')

/-- The assembled requests of `30_encoding.md` section 5 decode to the operations they stand for. -/
def Obligations.PrintedRequestWordsDecode : Prop :=
  decode 0x0000032000000 = .ok (.dec 50) ∧
  decode 0x00000E8000000 = .ok (.dec 232) ∧
  decode 0x164C896000000 = .ok (.enc (rgb 100 200 150)) ∧
  decode 0x2000003000000 = .ok (.cubeval 3) ∧
  decode 0x364C896000000 = .ok (.lum (rgb 100 200 150)) ∧
  decode 0x4000000FFFFFF = .ok (.dist (rgb 0 0 0) (rgb 255 255 255)) ∧
  decode 0x5000073000000 = .ok (.cidxr 115) ∧
  decode 0x6000073000000 = .ok (.cidxg 115) ∧
  decode 0x7000023000000 = .ok (.cidxb 35) ∧
  decode 0x8000080000000 = .ok (.glut 128) ∧
  decode 0x964C896000000 = .ok (.cubeidx (rgb 100 200 150))

/-- R38: a request with an operation code of 10..15 is refused, whatever its operands. -/
def Obligations.ReservedOperationCodesAreRefused : Prop :=
  ∀ (s : State) (w : Request), 10 ≤ w.toNat / 2 ^ 48 →
    step (s.presentNext w) = .refused (.reservedOperation (BitVec.ofNat 4 (w.toNat / 2 ^ 48)))

/-- R39: CUBEVAL of 6 and of 7 is refused, and no other operation on any operand is. -/
def Obligations.OnlyCubevalSixAndSevenAreRefused : Prop :=
  ∀ (s : State) (i : Instr),
    ((∃ r, exec i s = .refused r) ↔ i = .cubeval 6 ∨ i = .cubeval 7) ∧
    exec (.cubeval 6) s = .refused (.reservedCoordinate 6) ∧
    exec (.cubeval 7) s = .refused (.reservedCoordinate 7)

/-- R28: a packed colour is `65536*R + 256*G + B`, and packing and unpacking lose nothing. -/
def Obligations.PackedColourHoldsRedHighestBlueLowest : Prop :=
  (∀ r g b : Byte, (rgb r g b).toNat = 65536 * r.toNat + 256 * g.toNat + b.toNat ∧
    red (rgb r g b) = r ∧ green (rgb r g b) = g ∧ blue (rgb r g b) = b) ∧
  (∀ c : Rgb24, rgb (red c) (green c) (blue c) = c ∧ (red c).toNat = c.toNat / 65536 ∧
    (green c).toNat = c.toNat / 256 % 256 ∧ (blue c).toNat = c.toNat % 256)

/-! ### The port: a step, a run, the invariant, frames -/

/-- When the oldest request decodes to `i`, the step removes it from the requests and is `exec i` on the
state that is left (R32, R70). -/
def Obligations.StepRunsTheDecodedRequest : Prop :=
  ∀ (s : State) (w : Request) (rest : List Request) (i : Instr),
    s.requests = w :: rest → decode w = .ok i → step s = exec i { s with requests := rest }

/-- With no request presented a step changes nothing: the model's reading of R66 and R70 (log 5). -/
def Obligations.StepWithoutRequestChangesNothing : Prop :=
  ∀ s : State, s.requests = [] → step s = .next s

/-- R75, R50: every defined request is answered by one step, with a response that is at most DIST's
maximum, and nothing else changes. -/
def Obligations.DefinedRequestIsAnsweredByOneStep : Prop :=
  ∀ (s : State) (w : Request), DefinedRequest w →
    ∃ r : Response, r.toNat ≤ 299505150 ∧
      step (s.presentNext w) = .next { s with responses := s.responses ++ [r] }

/-- R17: the response is a function of the request and of what the block was built with; no earlier
request, waiting request or earlier response can be observed in it. -/
def Obligations.ResponseDependsOnRequestAndBuildOnly : Prop :=
  ∀ (s s' t : State) (w : Request), s.build = s'.build → step (s.presentNext w) = .next t →
    ∃ r : Response, t = { s with responses := s.responses ++ [r] } ∧
      step (s'.presentNext w) = .next { s' with responses := s'.responses ++ [r] }

/-- R70, R72: a run over defined requests gives exactly one response for each, in their order, each the
response `F` gives that request alone (the run's record is the model's two lists, log 1). -/
def Obligations.RunAnswersEveryRequestInOrder : Prop :=
  ∀ (b : Build) (qs : List Request) (rs : List Response), (∀ q ∈ qs, DefinedRequest q) →
    ∃ out : List Response, out.map some = qs.map (responseTo b) ∧
      Sys2Proof.core.run qs.length ({ build := b, requests := qs, responses := rs } : State) =
        .next ({ build := b, requests := [], responses := rs ++ out } : State)

/-- R70, R72: a request that the requester presents behind others already waiting changes nothing of the
step that answers the oldest of them. -/
def Obligations.RequestPresentedLaterWaitsItsTurn : Prop :=
  ∀ (s t : State) (w : Request), s.requests ≠ [] → step s = .next t →
    step (s.present w) = .next (t.present w) ∧ t.requests = s.requests.tail

/-- R70, R75: from a state whose waiting requests are all defined, a run of any number of steps neither
faults nor is refused, and it stays such a run (steps after the last answer idle: log 5). -/
def Obligations.SafeRunNeverStops : Prop :=
  ∀ (n : Nat) (s : State), SafeRun s →
    ∃ t : State, Sys2Proof.core.run n s = .next t ∧ SafeRun t ∧ t.requests = s.requests.drop n

/-- R38, U1: a run that reaches a reserved request has no end state: it is refused there. -/
def Obligations.RunWithReservedRequestIsRefused : Prop :=
  ∀ (b : Build) (qs rest : List Request) (q : Request) (rs : List Response) (extra : Nat),
    (∀ p ∈ qs, DefinedRequest p) → ¬ DefinedRequest q →
    ∃ why, Sys2Proof.core.run (qs.length + 1 + extra)
        ({ build := b, requests := qs ++ q :: rest, responses := rs } : State) = .refused why

/-- Every step keeps the invariant: an admissible greyscale table stays admissible (R7, R12) and every
response stays in the range of R33 and R50. -/
def Obligations.EveryStepKeepsTheInvariant : Prop :=
  ∀ s t : State, Inv s → step s = .next t → Inv t

/-- The invariant holds after reset; the table and the threshold sense there are the spec's defaults
(R16, R2), taken as reset values by the model's choice (log 3, log 4), as are the two lists (log 1). -/
def Obligations.ResetStateSatisfiesTheInvariant : Prop :=
  Inv State.reset ∧ State.reset.build.greyLut = greyLutDefault ∧
    State.reset.build.threshSense = .upper ∧ State.reset.requests = [] ∧ State.reset.responses = []

/-- R6, R23: an operation that ends has added one response, at the end, and changed nothing else: no
request, no build parameter, no entry of any table. -/
def Obligations.OperationAddsOneResponseAndWritesNothing : Prop :=
  ∀ (i : Instr) (s t : State), exec i s = .next t →
    (∃ r : Response, t.responses = s.responses ++ [r]) ∧ t.requests = s.requests ∧
      t.build = s.build ∧ ∀ (S : Space) (a : Fin S.entries), memRead t.build S a = memRead s.build S a

/-- R7, R69: no run, of any length and from any state, changes what the block was built with. -/
def Obligations.NoRunChangesTheBuildParameters : Prop :=
  ∀ (n : Nat) (s t : State), Sys2Proof.core.run n s = .next t → t.build = s.build

/-- R60: no operation raises an exception, for any operand. Every well-formed operation ends in a next
state, from every state; the step for a request ends in a next state when the request is defined, and
is refused exactly for the reserved request forms (R38, R39), "refusals of the spec, not exceptions of
the block". -/
def Obligations.NoOperationRaisesAnException : Prop :=
  ∀ s : State,
    (∀ i : Instr, i.WellFormed → ∃ t : State, exec i s = .next t) ∧
    (∀ w : Request, DefinedRequest w → ∃ t : State, step (s.presentNext w) = .next t) ∧
    (∀ w : Request, ¬ DefinedRequest w → ∃ why : Refusal, step (s.presentNext w) = .refused why)

/-! ### Tables -/

/-- R8, R9, R10: the constant tables, entry by entry, in any block. -/
def Obligations.ConstantTablesHoldTheListedEntries : Prop :=
  ∀ b : Build,
    (List.finRange 16).map (memRead b .sysColour) =
      [0x000000, 0xCE0000, 0x00CE00, 0xCECE00, 0x0000EE, 0xCE00CE, 0x00CECE, 0xEFEFEF,
       0x7F7F7F, 0xFF0000, 0x00FF00, 0xFFFF00, 0x5C5CFF, 0xFF00FF, 0x00FFFF, 0xFFFFFF] ∧
    (List.finRange 6).map (memRead b .cubeValue) = [0, 95, 135, 175, 215, 255] ∧
    (List.finRange 5).map (memRead b .threshR) = [38, 115, 155, 196, 235] ∧
    (List.finRange 5).map (memRead b .threshG) = [36, 116, 154, 195, 235] ∧
    (List.finRange 5).map (memRead b .threshB) = [35, 115, 155, 195, 235]

/-- R16: the spec's default table satisfies R13 to R15, and each of its entries is, among the 30 grey
indices, one whose grey is nearest under `Distance`, and of two that tie the one with the lower grey
level. -/
def Obligations.DefaultGreyTableIsNearestGreyTiesToLower : Prop :=
  GreyLutAdmissible greyLutDefault ∧
  ∀ (b : Build) (v c : Byte), c ∈ greyIndices →
    let d : Byte := greyLutDefault[v.toNat]
    let here := distance (rgb v v v) (paletteDecode b d)
    let there := distance (rgb v v v) (paletteDecode b c)
    d ∈ greyIndices ∧ here ≤ there ∧
      (here = there → (red (paletteDecode b d)).toNat ≤ (red (paletteDecode b c)).toNat)

/-! ### CUBEVAL and DEC -/

/-- R43: CUBEVAL gives the listed intensity for 0..5 and is refused for 6 and 7; its request word. -/
def Obligations.CubevalGivesTheListedIntensity : Prop :=
  ∀ (s : State) (k : BitVec 3),
    (encode (.cubeval k)).toNat = 2 * 2 ^ 48 + k.toNat * 2 ^ 24 ∧
    (k.toNat < 6 → exec (.cubeval k) s =
      .next { s with responses :=
        s.responses ++ [BitVec.ofNat 32 ([0, 95, 135, 175, 215, 255].getD k.toNat 0)] }) ∧
    (6 ≤ k.toNat → exec (.cubeval k) s = .refused (.reservedCoordinate k))

/-- R44: DEC of every index, by the three ranges; its request word. -/
def Obligations.DecGivesTheColourOfTheIndex : Prop :=
  ∀ (s : State) (n : Byte),
    let i := n.toNat
    let V : Nat → Nat := fun k => [0, 95, 135, 175, 215, 255].getD k 0
    let grey := (i - 232) * 10 + 8
    (encode (.dec n)).toNat = n.toNat * 2 ^ 24 ∧
    exec (.dec n) s = .next { s with responses := s.responses ++ [BitVec.ofNat 32 (
      if i < 16 then
        [0x000000, 0xCE0000, 0x00CE00, 0xCECE00, 0x0000EE, 0xCE00CE, 0x00CECE, 0xEFEFEF,
         0x7F7F7F, 0xFF0000, 0x00FF00, 0xFFFF00, 0x5C5CFF, 0xFF00FF, 0x00FFFF, 0xFFFFFF].getD i 0
      else if i < 232 then
        65536 * V ((i - 16) / 36) + 256 * V ((i - 16) / 6 % 6) + V ((i - 16) % 6)
      else 65536 * grey + 256 * grey + grey)] }

/-- R30: the cube indices and the coordinate triples are in bijection, and DEC of a cube index gives the
intensities of its coordinates. -/
def Obligations.CubeIndexAndCoordinatesAreInverse : Prop :=
  ∀ s : State,
    let V : Nat → Nat := fun k => [0, 95, 135, 175, 215, 255].getD k 0
    (∀ i : Nat, 16 ≤ i → i ≤ 231 →
      (i - 16) / 36 < 6 ∧ (i - 16) / 6 % 6 < 6 ∧ (i - 16) % 6 < 6 ∧
        16 + 36 * ((i - 16) / 36) + 6 * ((i - 16) / 6 % 6) + (i - 16) % 6 = i) ∧
    (∀ kr kg kb : Coord,
      let i := 16 + 36 * kr.val + 6 * kg.val + kb.val
      16 ≤ i ∧ i ≤ 231 ∧
        (i - 16) / 36 = kr.val ∧ (i - 16) / 6 % 6 = kg.val ∧ (i - 16) % 6 = kb.val ∧
        (composeCube kr kg kb).toNat = i ∧
        exec (.dec (BitVec.ofNat 8 i)) s = .next { s with responses := s.responses ++
          [BitVec.ofNat 32 (65536 * V kr.val + 256 * V kg.val + V kb.val)] })

/-- R31: DEC of a ramp index gives the grey level `(i - 232)*10 + 8` in each channel. -/
def Obligations.RampIndexStandsForItsGreyLevel : Prop :=
  ∀ (s : State) (n : Byte), 232 ≤ n.toNat →
    let level := (n.toNat - 232) * 10 + 8
    8 ≤ level ∧ level ≤ 238 ∧ n.toNat = 232 + (level - 8) / 10 ∧
      exec (.dec n) s = .next { s with responses := s.responses ++
        [BitVec.ofNat 32 (65536 * level + 256 * level + level)] }

/-- R44, corner cases: no two indices of 16..255 have the same colour, no two system indices do, and a
system index has the colour of an index of 16..255 in exactly seven cases. -/
def Obligations.DecIsInjectiveAboveTheSystemColours : Prop :=
  ∀ s : State,
    (∀ m n : Byte, 16 ≤ m.toNat → 16 ≤ n.toNat → exec (.dec m) s = exec (.dec n) s → m = n) ∧
    (∀ m n : Byte, m.toNat < 16 → n.toNat < 16 → exec (.dec m) s = exec (.dec n) s → m = n) ∧
    (∀ m n : Byte, m.toNat < 16 → 16 ≤ n.toNat →
      (exec (.dec m) s = exec (.dec n) s ↔
        (m, n) ∈ [(0, 16), (9, 196), (10, 46), (11, 226), (13, 201), (14, 51), (15, 231)]))

/-! ### LUM and GLUT -/

/-- R45: LUM gives the exact weighted sum shifted right by 24, which needs no truncation; its request
word. -/
def Obligations.LumGivesTheWeightedSumShiftedRight : Prop :=
  ∀ (s : State) (c : Rgb24),
    let acc := 3568058 * (red c).toNat + 11998262 * (green c).toNat + 1210896 * (blue c).toNat
    (encode (.lum c)).toNat = 3 * 2 ^ 48 + c.toNat * 2 ^ 24 ∧
    acc ≤ 4278190080 ∧ acc / 2 ^ 24 ≤ 255 ∧
    exec (.lum c) s =
      .next { s with responses := s.responses ++ [BitVec.ofNat 32 (acc / 2 ^ 24)] }

/-- R45, corner cases: the luminance of an exact grey is its level, and luminance never falls when a
channel rises. -/
def Obligations.LuminanceKeepsGreysAndIsMonotone : Prop :=
  (∀ v : Byte, luminance (rgb v v v) = v) ∧
  (∀ c d : Rgb24, (red c).toNat ≤ (red d).toNat → (green c).toNat ≤ (green d).toNat →
    (blue c).toNat ≤ (blue d).toNat → (luminance c).toNat ≤ (luminance d).toNat)

/-- R46: GLUT gives the table's entry, for any table; for an admissible table that entry is one of the 30
grey indices, and it is the pinned one at each of the 30 pinned bytes (R13, R14, R15). -/
def Obligations.GlutGivesTheTableEntry : Prop :=
  ∀ (s : State) (v : Byte),
    (encode (.glut v)).toNat = 8 * 2 ^ 48 + v.toNat * 2 ^ 24 ∧
    exec (.glut v) s = .next { s with responses :=
      s.responses ++ [BitVec.ofNat 32 (s.build.greyLut[v.toNat]).toNat] } ∧
    (GreyLutAdmissible s.build.greyLut →
      ((s.build.greyLut[v.toNat]).toNat ∈ [16, 59, 102, 145, 188, 231] ∨
        232 ≤ (s.build.greyLut[v.toNat]).toNat) ∧
      (∀ k < 24, v.toNat = 8 + 10 * k → (s.build.greyLut[v.toNat]).toNat = 232 + k) ∧
      (∀ p ∈ [(0, 16), (95, 59), (135, 102), (175, 145), (215, 188), (255, 231)],
        v.toNat = p.1 → (s.build.greyLut[v.toNat]).toNat = p.2))

/-- R47: LUM followed by GLUT gives the grey candidate, one of the 30 grey indices, and its colour is a
grey. -/
def Obligations.GreyCandidateIsAlwaysAGrey : Prop :=
  ∀ (s : State) (c : Rgb24), GreyLutAdmissible s.build.greyLut →
    ∃ (l gi d : Response),
      exec (.lum c) s = .next { s with responses := s.responses ++ [l] } ∧
      exec (.glut (l.setWidth 8)) s = .next { s with responses := s.responses ++ [gi] } ∧
      exec (.dec (gi.setWidth 8)) s = .next { s with responses := s.responses ++ [d] } ∧
      gi.setWidth 8 = greyCandidate s.build c ∧
      (gi.toNat ∈ [16, 59, 102, 145, 188, 231] ∨ (232 ≤ gi.toNat ∧ gi.toNat ≤ 255)) ∧
      ∃ g : Byte, d = zext32 (rgb g g g)

/-! ### DIST -/

/-- R48: DIST gives the score of the formula over exact integers, with no wrap-around; its request
word. -/
def Obligations.DistGivesTheWeightedSquaredDifference : Prop :=
  ∀ (s : State) (x y : Rgb24),
    let rSum : Int := (red x).toNat + (red y).toNat
    let dr : Int := (red x).toNat - (red y).toNat
    let dg : Int := (green x).toNat - (green y).toNat
    let db : Int := (blue x).toNat - (blue y).toNat
    (encode (.dist x y)).toNat = 4 * 2 ^ 48 + x.toNat * 2 ^ 24 + y.toNat ∧
    ∃ r : Response,
      exec (.dist x y) s = .next { s with responses := s.responses ++ [r] } ∧
      (r.toNat : Int) = (1024 + rSum) * dr ^ 2 + 2048 * dg ^ 2 + (1534 - rSum) * db ^ 2 ∧
      r.toNat = distance x y

/-- R49 (a) to (e): the distance is zero exactly between equal colours, symmetric, `4606 * sq(u - w)`
between two greys, and does not satisfy the triangle inequality. -/
def Obligations.DistanceIsZeroOnlyOnEqualAndSymmetric : Prop :=
  (∀ x : Rgb24, distance x x = 0) ∧
  (∀ x y : Rgb24, distance x y = distance y x) ∧
  (∀ x y : Rgb24, x ≠ y → 0 < distance x y) ∧
  (∀ u w : Byte, (distance (rgb u u u) (rgb w w w) : Int) = 4606 * ((u.toNat : Int) - w.toNat) ^ 2) ∧
  (∃ x y z : Rgb24, distance x y + distance y z < distance x z)

/-- R50: the distance is at most 299505150, reached exactly when every channel differs by 255, and the
bounds of its parts. -/
def Obligations.DistanceIsAtMostItsMaximum : Prop :=
  ∀ x y : Rgb24,
    let rSum := (red x).toNat + (red y).toNat
    let r2 := ((red x).toNat - (red y).toNat + ((red y).toNat - (red x).toNat)) ^ 2
    let g2 := ((green x).toNat - (green y).toNat + ((green y).toNat - (green x).toNat)) ^ 2
    let b2 := ((blue x).toNat - (blue y).toNat + ((blue y).toNat - (blue x).toNat)) ^ 2
    distance x y = (1024 + rSum) * r2 + 2048 * g2 + (1534 - rSum) * b2 ∧
    distance x y ≤ 299505150 ∧
    (distance x y = 299505150 ↔ r2 = 65025 ∧ g2 = 65025 ∧ b2 = 65025) ∧
    rSum ≤ 510 ∧ r2 ≤ 65025 ∧ g2 ≤ 65025 ∧ b2 ≤ 65025 ∧
    (1024 + rSum) * r2 ≤ 99748350 ∧ 2048 * g2 ≤ 133171200 ∧ (1534 - rSum) * b2 ≤ 99748350 ∧
    (1024 + rSum) * r2 + (1534 - rSum) * b2 ≤ 166333950

/-! ### Cube indexing -/

/-- R52: for five ascending thresholds, the coordinate is the first interval the byte falls in; it never
falls when the byte rises; and the two threshold senses (D7, log 4) differ exactly at the thresholds. -/
def Obligations.CubeIndexFollowsTheThresholdChain : Prop :=
  ∀ (T : Fin 5 → Byte), T 0 < T 1 → T 1 < T 2 → T 2 < T 3 → T 3 < T 4 →
    (∀ v : Byte, (cubeIndex .upper T v).val =
      if v < T 0 then 0 else if v < T 1 then 1 else if v < T 2 then 2
      else if v < T 3 then 3 else if v < T 4 then 4 else 5) ∧
    (∀ (sense : ThreshSense) (v w : Byte), v ≤ w → cubeIndex sense T v ≤ cubeIndex sense T w) ∧
    (∀ v : Byte, cubeIndex .upper T v ≠ cubeIndex .lower T v ↔ ∃ j, v = T j)

/-- R53: CIDXR by intervals, with `THRESH_SENSE = upper` (R52); its request word. -/
def Obligations.CidxrGivesTheRedCoordinate : Prop :=
  ∀ (s : State) (v : Byte), s.build.threshSense = .upper →
    (encode (.cidxr v)).toNat = 5 * 2 ^ 48 + v.toNat * 2 ^ 24 ∧
    exec (.cidxr v) s = .next { s with responses := s.responses ++ [BitVec.ofNat 32 (
      if v.toNat < 38 then 0 else if v.toNat < 115 then 1 else if v.toNat < 155 then 2
      else if v.toNat < 196 then 3 else if v.toNat < 235 then 4 else 5)] }

/-- R54: CIDXG by intervals, with `THRESH_SENSE = upper` (R52); its request word. -/
def Obligations.CidxgGivesTheGreenCoordinate : Prop :=
  ∀ (s : State) (v : Byte), s.build.threshSense = .upper →
    (encode (.cidxg v)).toNat = 6 * 2 ^ 48 + v.toNat * 2 ^ 24 ∧
    exec (.cidxg v) s = .next { s with responses := s.responses ++ [BitVec.ofNat 32 (
      if v.toNat < 36 then 0 else if v.toNat < 116 then 1 else if v.toNat < 154 then 2
      else if v.toNat < 195 then 3 else if v.toNat < 235 then 4 else 5)] }

/-- R55: CIDXB by intervals, with `THRESH_SENSE = upper` (R52); its request word. -/
def Obligations.CidxbGivesTheBlueCoordinate : Prop :=
  ∀ (s : State) (v : Byte), s.build.threshSense = .upper →
    (encode (.cidxb v)).toNat = 7 * 2 ^ 48 + v.toNat * 2 ^ 24 ∧
    exec (.cidxb v) s = .next { s with responses := s.responses ++ [BitVec.ofNat 32 (
      if v.toNat < 35 then 0 else if v.toNat < 115 then 1 else if v.toNat < 155 then 2
      else if v.toNat < 195 then 3 else if v.toNat < 235 then 4 else 5)] }

/-- The end of R55's section: the three channels give one coordinate but at six bytes (with
`THRESH_SENSE = upper`). -/
def Obligations.ChannelsDifferOnlyAtSixBytes : Prop :=
  ∀ (s : State) (v : Byte), s.build.threshSense = .upper →
    (exec (.cidxr v) s = exec (.cidxg v) s ∧ exec (.cidxg v) s = exec (.cidxb v) s ↔
      v.toNat ∉ [35, 36, 37, 115, 154, 195])

/-- R56: CUBEIDX composes the three coordinates, each the number of its own channel's thresholds that
are at most the byte (`THRESH_SENSE = upper`, R52), into an index 16..231; its request word. -/
def Obligations.CubeidxComposesTheThreeCoordinates : Prop :=
  ∀ (s : State) (c : Rgb24), s.build.threshSense = .upper →
    let counted : List Nat → Byte → Nat := fun T v => T.countP fun t => decide (t ≤ v.toNat)
    let i := 16 + 36 * counted [38, 115, 155, 196, 235] (red c) +
      6 * counted [36, 116, 154, 195, 235] (green c) + counted [35, 115, 155, 195, 235] (blue c)
    (encode (.cubeidx c)).toNat = 9 * 2 ^ 48 + c.toNat * 2 ^ 24 ∧ 16 ≤ i ∧ i ≤ 231 ∧
    exec (.cubeidx c) s = .next { s with responses := s.responses ++ [BitVec.ofNat 32 i] }

/-- The alternative threshold sense of D7 (log 4; the spec's own choice is `upper`): a block built with
`lower` counts only the thresholds below the byte, in CIDXR, CIDXG, CIDXB and CUBEIDX. -/
def Obligations.LowerSenseCountsThresholdsBelowTheByte : Prop :=
  ∀ (s : State) (v : Byte) (c : Rgb24), s.build.threshSense = .lower →
    let counted : List Nat → Byte → Nat := fun T v => T.countP fun t => decide (t < v.toNat)
    let R := [38, 115, 155, 196, 235]
    let G := [36, 116, 154, 195, 235]
    let B := [35, 115, 155, 195, 235]
    exec (.cidxr v) s = .next { s with responses := s.responses ++ [BitVec.ofNat 32 (counted R v)] } ∧
    exec (.cidxg v) s = .next { s with responses := s.responses ++ [BitVec.ofNat 32 (counted G v)] } ∧
    exec (.cidxb v) s = .next { s with responses := s.responses ++ [BitVec.ofNat 32 (counted B v)] } ∧
    exec (.cubeidx c) s = .next { s with responses := s.responses ++ [BitVec.ofNat 32 (
      16 + 36 * counted R (red c) + 6 * counted G (green c) + counted B (blue c))] }

/-- R56, corner cases: CUBEIDX of a cube colour is that colour's own index, under either threshold
sense. -/
def Obligations.CubeidxOfACubeColourIsItsOwnIndex : Prop :=
  ∀ (s : State) (n : Byte), 16 ≤ n.toNat → n.toNat ≤ 231 →
    ∃ c : Response,
      exec (.dec n) s = .next { s with responses := s.responses ++ [c] } ∧
      exec (.cubeidx (c.setWidth 24)) s = .next { s with responses := s.responses ++ [zext32 n] }

/-! ### ENC -/

/-- R57 and R51: ENC of an exact grey is its table entry; ENC of any other colour is the grey candidate
when its distance is strictly smaller, else the cube candidate, where the candidates and distances are
the responses of LUM, GLUT, DEC, DIST and CUBEIDX (`95_test_vectors.md` P2); its request word. -/
def Obligations.EncChoosesTheNearerOfTwoCandidates : Prop :=
  ∀ (s : State) (c : Rgb24),
    (encode (.enc c)).toNat = 1 * 2 ^ 48 + c.toNat * 2 ^ 24 ∧
    ((red c = green c ∧ green c = blue c) →
      exec (.enc c) s = .next { s with responses :=
        s.responses ++ [BitVec.ofNat 32 (s.build.greyLut[(red c).toNat]).toNat] }) ∧
    (¬ (red c = green c ∧ green c = blue c) →
      ∃ l gi dgi gd ci dci cd : Response,
        Answers (.lum c) s l ∧ Answers (.glut (l.setWidth 8)) s gi ∧
        Answers (.dec (gi.setWidth 8)) s dgi ∧ Answers (.dist c (dgi.setWidth 24)) s gd ∧
        Answers (.cubeidx c) s ci ∧ Answers (.dec (ci.setWidth 8)) s dci ∧
        Answers (.dist c (dci.setWidth 24)) s cd ∧
        exec (.enc c) s = .next { s with responses :=
          s.responses ++ [if gd.toNat < cd.toNat then gi else ci] })

/-- R58: with an admissible table ENC always gives an index 16..255, never a system colour's; so no
system colour's index comes back from ENC of its colour. -/
def Obligations.EncNeverGivesASystemColour : Prop :=
  ∀ (s : State), GreyLutAdmissible s.build.greyLut →
    (∀ c : Rgb24, ∃ r : Response, 16 ≤ r.toNat ∧ r.toNat ≤ 255 ∧
      exec (.enc c) s = .next { s with responses := s.responses ++ [r] }) ∧
    (∀ n : Byte, n.toNat < 16 → ∃ c r : Response,
      Answers (.dec n) s c ∧ Answers (.enc (c.setWidth 24)) s r ∧ r ≠ zext32 n)

/-- R59, rows 1 and 2: ENC of DEC of every index 16..255 is that index, for every admissible greyscale
table and either threshold sense. -/
def Obligations.EncInvertsDecAboveTheSystemColours : Prop :=
  ∀ (s : State) (n : Byte), GreyLutAdmissible s.build.greyLut → 16 ≤ n.toNat →
    ∃ c : Response,
      exec (.dec n) s = .next { s with responses := s.responses ++ [c] } ∧
      exec (.enc (c.setWidth 24)) s = .next { s with responses := s.responses ++ [zext32 n] }

/-- R51 on the colour of P5: the two candidates 59 and 60 are equally far, and ENC gives the cube
candidate 60 (with `THRESH_SENSE = upper`, and the pinned entry at 95). -/
def Obligations.EncBreaksTheTieToTheCubeCandidate : Prop :=
  ∀ s : State, s.build.threshSense = .upper → s.build.greyLut[95] = 59 →
    Answers (.cubeidx (rgb 38 110 115)) s 60 ∧ Answers (.lum (rgb 38 110 115)) s 95 ∧
    Answers (.dist (rgb 38 110 115) (rgb 95 95 95)) s 4780293 ∧
    Answers (.dist (rgb 38 110 115) (rgb 95 95 135)) s 4780293 ∧
    exec (.enc (rgb 38 110 115)) s = .next { s with responses := s.responses ++ [60] }

/-! ### The requester: CONVERT and the textual form -/

/-- R42: CONVERT of an index is DEC's response; CONVERT of a colour is ENC's response and DEC of it, and
neither ever fails. -/
def Obligations.ConvertIsEncThenDec : Prop :=
  (∀ (b : Build) (i : Byte), ∃ d : Rgb24, convertIndex b i = some d ∧
    responseTo b (encode (.dec i)) = some (zext32 d)) ∧
  (∀ (b : Build) (c : Rgb24), ∃ (n : Byte) (d : Rgb24), convertColour b c = some (n, d) ∧
    responseTo b (encode (.enc c)) = some (zext32 n) ∧
    responseTo b (encode (.dec n)) = some (zext32 d))

/-- R41, R61: a request that the textual form can be assembled to is never a reserved one. -/
def Obligations.AssembledRequestsAreWellFormed : Prop :=
  ∀ (text : List Char) (i : Instr), assemble text = some (.request i) → i.WellFormed

/-- R41: the text of every well-formed operation assembles back to it. -/
def Obligations.AssembleReadsBackEveryRenderedInstruction : Prop :=
  ∀ i : Instr, i.WellFormed → assemble (render i) = some (.request i)
end

