-- ==== Sys2Proof/Laws/State.lean ====
section
/-! SUPPORT. One lemma per field of State per update of it, so that no proof unfolds a record update. -/

namespace Sys2Proof.Machine

open Sys2Proof

@[simp] theorem State.respond_build (s : State) (r : Response) : (s.respond r).build = s.build := rfl
@[simp] theorem State.respond_requests (s : State) (r : Response) :
    (s.respond r).requests = s.requests := rfl
@[simp] theorem State.respond_responses (s : State) (r : Response) :
    (s.respond r).responses = s.responses ++ [r] := rfl

@[simp] theorem State.presentNext_build (s : State) (w : Request) :
    (s.presentNext w).build = s.build := rfl
@[simp] theorem State.presentNext_requests (s : State) (w : Request) :
    (s.presentNext w).requests = w :: s.requests := rfl
@[simp] theorem State.presentNext_responses (s : State) (w : Request) :
    (s.presentNext w).responses = s.responses := rfl

@[simp] theorem State.present_build (s : State) (w : Request) : (s.present w).build = s.build := rfl
@[simp] theorem State.present_requests (s : State) (w : Request) :
    (s.present w).requests = s.requests ++ [w] := rfl
@[simp] theorem State.present_responses (s : State) (w : Request) :
    (s.present w).responses = s.responses := rfl

@[simp] theorem State.reset_build :
    State.reset.build = { greyLut := greyLutDefault, threshSense := .upper } := rfl
@[simp] theorem State.reset_requests : State.reset.requests = [] := rfl
@[simp] theorem State.reset_responses : State.reset.responses = [] := rfl

end Sys2Proof.Machine
end

