-- ==== Sys2Proof/Laws/Ops.lean ====
section
/-! SUPPORT. For each shared operation over tables, operands and the port, one lemma that says all it
can do. -/

namespace Sys2Proof.Machine

open Sys2Proof

/-- `answer` ends in a next state, and only by adding its response. -/
theorem answer_eq_next_iff (s t : State) (r : Response) :
    answer s r = .next t ↔ t = s.respond r := by
  simp [answer, eq_comm]

/-- `answer` refuses nothing. -/
theorem answer_ne_refused (s : State) (r : Response) (why : Refusal) : answer s r ≠ .refused why := by
  simp [answer]

@[simp] theorem takeRequest_of_nil {s : State} (h : s.requests = []) : s.takeRequest = none := by
  simp [State.takeRequest, h]

@[simp] theorem takeRequest_of_cons {s : State} {w : Request} {rest : List Request}
    (h : s.requests = w :: rest) : s.takeRequest = some (w, { s with requests := rest }) := by
  simp [State.takeRequest, h]

/-- Presenting a request next and taking the oldest gives it back, and the state as it was. -/
@[simp] theorem takeRequest_presentNext (s : State) (w : Request) :
    (s.presentNext w).takeRequest = some (w, s) := rfl

/-- A word that is no operation is refused, and nothing else happens. -/
theorem refuseWord_refused (e : DecodeError) : ∃ why, refuseWord e = .refused why := by
  cases e with
  | reservedOperation op => exact ⟨_, rfl⟩

@[simp] theorem memRead_sysColour (b : Build) (a : Fin 16) :
    memRead b .sysColour a = sysColourTable.get a := rfl
@[simp] theorem memRead_cubeValue (b : Build) (a : Fin 6) :
    memRead b .cubeValue a = cubeValueTable.get a := rfl
@[simp] theorem memRead_greyLut (b : Build) (a : Fin 256) :
    memRead b .greyLut a = b.greyLut.get a := rfl
@[simp] theorem memRead_threshR (b : Build) (a : Fin 5) :
    memRead b .threshR a = threshRTable.get a := rfl
@[simp] theorem memRead_threshG (b : Build) (a : Fin 5) :
    memRead b .threshG a = threshGTable.get a := rfl
@[simp] theorem memRead_threshB (b : Build) (a : Fin 5) :
    memRead b .threshB a = threshBTable.get a := rfl

/-- The zero extension of a result of at most 32 bits loses nothing (R33). -/
theorem zext32_toNat {w : Nat} (hw : w ≤ 32) (v : BitVec w) : (zext32 v).toNat = v.toNat := by
  have h : v.toNat < 2 ^ 32 := lt_of_lt_of_le v.isLt (Nat.pow_le_pow_right (by decide) hw)
  rw [zext32, BitVec.toNat_setWidth, Nat.mod_eq_of_lt h]

/-- The greyscale lookup reads the build's table at the byte's own number. -/
theorem greyLut_get (b : Build) (v : Byte) :
    memRead b .greyLut ⟨v.toNat, v.isLt⟩ = b.greyLut[v.toNat] := rfl

end Sys2Proof.Machine
end

