-- ==== Sys2Proof/Laws/Meanings.lean ====
section
/-! SUPPORT. One lemma per operation: the meaning its arm calls. -/

namespace Sys2Proof.Machine

open Sys2Proof

@[simp] theorem exec_dec (n : Byte) (s : State) :
    exec (.dec n) s = answer s (zext32 (paletteDecode s.build n)) := rfl
@[simp] theorem exec_enc (c : Rgb24) (s : State) :
    exec (.enc c) s = answer s (zext32 (paletteEncode s.build c)) := rfl
@[simp] theorem exec_lum (c : Rgb24) (s : State) :
    exec (.lum c) s = answer s (zext32 (luminance c)) := rfl
@[simp] theorem exec_dist (x y : Rgb24) (s : State) :
    exec (.dist x y) s = answer s (BitVec.ofNat 32 (distance x y)) := rfl
@[simp] theorem exec_cidxr (v : Byte) (s : State) :
    exec (.cidxr v) s = answer s (coordResponse (cubeIndexR s.build v)) := rfl
@[simp] theorem exec_cidxg (v : Byte) (s : State) :
    exec (.cidxg v) s = answer s (coordResponse (cubeIndexG s.build v)) := rfl
@[simp] theorem exec_cidxb (v : Byte) (s : State) :
    exec (.cidxb v) s = answer s (coordResponse (cubeIndexB s.build v)) := rfl
@[simp] theorem exec_glut (v : Byte) (s : State) :
    exec (.glut v) s = answer s (zext32 (greyIndex s.build v)) := rfl
@[simp] theorem exec_cubeidx (c : Rgb24) (s : State) :
    exec (.cubeidx c) s = answer s (zext32 (cubeCandidate s.build c)) := rfl

/-- CUBEVAL of a defined coordinate. -/
theorem exec_cubeval_of_lt {k : BitVec 3} (h : k.toNat < 6) (s : State) :
    exec (.cubeval k) s = answer s (zext32 (cubeValue s.build ⟨k.toNat, h⟩)) := by
  simp only [exec, execCubeval, dif_pos h]

/-- CUBEVAL of a reserved coordinate. -/
theorem exec_cubeval_of_ge {k : BitVec 3} (h : 6 ≤ k.toNat) (s : State) :
    exec (.cubeval k) s = .refused (.reservedCoordinate k) := by
  simp only [exec, execCubeval, dif_neg (Nat.not_lt.mpr h)]

end Sys2Proof.Machine
end

