-- ==== Sys2Proof/Laws/PerInstr.lean ====
section
/-! SUPPORT. Statements made per instruction, about the instruction as syntax: the operation code field
of its request word (`30_encoding.md` R32, R35), and that its `b` field is zero unless it is DIST (R34,
R41). -/

namespace Sys2Proof.Laws

open Sys2Proof

/-- The operation code of a request of three fields is its first field (R32). -/
theorem opField_request (op : BitVec 4) (a b : BitVec 24) : opField (request op a b) = op := by
  have ha := a.isLt
  have hb := b.isLt
  apply BitVec.eq_of_toNat_eq
  rw [opField, request, BitVec.extractLsb'_toNat, BitVec.toNat_append, BitVec.toNat_append,
    ← Nat.shiftLeft_add_eq_or_of_lt ha, ← Nat.shiftLeft_add_eq_or_of_lt hb]
  simp only [Nat.shiftRight_eq_div_pow, Nat.shiftLeft_eq]
  have hop := op.isLt
  omega

/-- R35: the request word of an operation carries that operation's code. -/
def OpcodeField.Statement (i : Instr) : Prop := opField (encode i) = opcode i

theorem OpcodeField.dec (n : Byte) : OpcodeField.Statement (.dec n) := opField_request _ _ _
theorem OpcodeField.enc (c : Rgb24) : OpcodeField.Statement (.enc c) := opField_request _ _ _
theorem OpcodeField.cubeval (k : BitVec 3) : OpcodeField.Statement (.cubeval k) := opField_request _ _ _
theorem OpcodeField.lum (c : Rgb24) : OpcodeField.Statement (.lum c) := opField_request _ _ _
theorem OpcodeField.dist (x y : Rgb24) : OpcodeField.Statement (.dist x y) := opField_request _ _ _
theorem OpcodeField.cidxr (v : Byte) : OpcodeField.Statement (.cidxr v) := opField_request _ _ _
theorem OpcodeField.cidxg (v : Byte) : OpcodeField.Statement (.cidxg v) := opField_request _ _ _
theorem OpcodeField.cidxb (v : Byte) : OpcodeField.Statement (.cidxb v) := opField_request _ _ _
theorem OpcodeField.glut (v : Byte) : OpcodeField.Statement (.glut v) := opField_request _ _ _
theorem OpcodeField.cubeidx (c : Rgb24) : OpcodeField.Statement (.cubeidx c) := opField_request _ _ _

end Sys2Proof.Laws
end

