-- ==== Sys2Proof/Laws/WellFormed.lean ====
section
/-! SUPPORT. What well-formedness says of each operation: everything is well-formed but CUBEVAL of 6 and
7 (`30_encoding.md` R39). -/

namespace Sys2Proof

@[simp] theorem Instr.wellFormed_cubeval (k : BitVec 3) :
    (Instr.cubeval k).WellFormed ↔ k.toNat < 6 := by
  simp [Instr.WellFormed, Instr.wellFormed]

@[simp] theorem Instr.wellFormed_dec (n : Byte) : (Instr.dec n).WellFormed := rfl
@[simp] theorem Instr.wellFormed_enc (c : Rgb24) : (Instr.enc c).WellFormed := rfl
@[simp] theorem Instr.wellFormed_lum (c : Rgb24) : (Instr.lum c).WellFormed := rfl
@[simp] theorem Instr.wellFormed_dist (x y : Rgb24) : (Instr.dist x y).WellFormed := rfl
@[simp] theorem Instr.wellFormed_cidxr (v : Byte) : (Instr.cidxr v).WellFormed := rfl
@[simp] theorem Instr.wellFormed_cidxg (v : Byte) : (Instr.cidxg v).WellFormed := rfl
@[simp] theorem Instr.wellFormed_cidxb (v : Byte) : (Instr.cidxb v).WellFormed := rfl
@[simp] theorem Instr.wellFormed_glut (v : Byte) : (Instr.glut v).WellFormed := rfl
@[simp] theorem Instr.wellFormed_cubeidx (c : Rgb24) : (Instr.cubeidx c).WellFormed := rfl

end Sys2Proof
end

