-- ==== Sys2Proof/Tests/Slice0.lean ====
section
/-! SUPPORT. Tests: the well-formedness smoke test, words written out from the spec's encodings, one or
two vectors of `95_test_vectors.md` per operation, and the witnesses of the obligations' hypotheses. -/

namespace Sys2Proof.Tests

open Sys2Proof Sys2Proof.Machine

/-- The response an operation gives at a state, if it ends in one. -/
def lastResponse (i : Instr) (s : State) : Option Response :=
  match exec i s with
  | .next t => t.responses.getLast?
  | .fault _ => none
  | .refused _ => none

/-- Why an operation is refused at a state, if it is. -/
def refusal (i : Instr) (s : State) : Option Refusal :=
  match exec i s with
  | .next _ => none
  | .fault _ => none
  | .refused r => some r

/-- Why a step is refused at a state, if it is. -/
def stepRefusal (s : State) : Option Refusal :=
  match step s with
  | .next _ => none
  | .fault _ => none
  | .refused r => some r

/-- A block as after reset that has already given one response, with one request waiting. -/
def busy : State := { State.reset with requests := [0x0000032000000], responses := [7] }

/-- The same block built with the other threshold sense (D7). -/
def busyLower : State := { busy with build := { busy.build with threshSense := .lower } }

/-- The operation a word decodes to. -/
def decoded (w : Request) : Option Instr :=
  match decode w with
  | .ok i => some i
  | .error _ => none

/-! ### Well-formedness -/

theorem test_cubeval_six_is_ill_formed : ¬ (Instr.cubeval 6).WellFormed := by decide
theorem test_cubeval_seven_is_ill_formed : ¬ (Instr.cubeval 7).WellFormed := by decide
theorem test_cubeval_five_is_well_formed : (Instr.cubeval 5).WellFormed := by decide

/-! ### Words written out from R32, R34, R35: `op`, then `a`, then `b`. The binary words are the rows'
patterns of `opcode_table.json` with the operand bits filled in; unread bits are set where noted. -/

/-- V-DEC-42: unread bits set, `a = 0xABCD32`, `b = 0x123456`. -/
theorem test_decode_dec :
    decoded 0b0000_10101011_11001101_00110010_00010010_00110100_01010110 = some (.dec 50) := by decide
/-- V-ENC-72: `b = 0xFFFFFF` is not read. -/
theorem test_decode_enc :
    decoded 0b0001_01100100_11001000_10010110_11111111_11111111_11111111 =
      some (.enc 0x64C896) := by decide
/-- V-CUBEVAL-09: `a = 0xFFFFFB`, only `a[2:0] = 3` is read. -/
theorem test_decode_cubeval :
    decoded 0b0010_11111111_11111111_11111011_11111111_11111111_11111111 =
      some (.cubeval 3) := by decide
/-- V-LUM-06. -/
theorem test_decode_lum :
    decoded 0b0011_01100100_11001000_10010110_00000000_00000000_00000000 =
      some (.lum 0x64C896) := by decide
/-- V-DIST-15: `x` in the `a` field, `y` in the `b` field. -/
theorem test_decode_dist :
    decoded 0b0100_01100100_11001000_10010110_10101111_10101111_10101111 =
      some (.dist 0x64C896 0xAFAFAF) := by decide
/-- V-CIDX-09. -/
theorem test_decode_cidxr :
    decoded 0b0101_00000000_00000000_11000100_00000000_00000000_00000000 =
      some (.cidxr 196) := by decide
/-- V-CIDX-15. -/
theorem test_decode_cidxg :
    decoded 0b0110_00000000_00000000_00100100_00000000_00000000_00000000 =
      some (.cidxg 36) := by decide
/-- V-CIDX-27. -/
theorem test_decode_cidxb :
    decoded 0b0111_00000000_00000000_00100011_00000000_00000000_00000000 =
      some (.cidxb 35) := by decide
/-- V-GLUT-19. -/
theorem test_decode_glut :
    decoded 0b1000_00000000_00000000_10000000_00000000_00000000_00000000 =
      some (.glut 128) := by decide
/-- V-CUBEIDX-03. -/
theorem test_decode_cubeidx :
    decoded 0b1001_01100100_11001000_10010110_00000000_00000000_00000000 =
      some (.cubeidx 0x64C896) := by decide

/-- V-RSV-01, V-RSV-02, V-RSV-03: refused, by name. -/
theorem test_reserved_operations_refused :
    stepRefusal (busy.presentNext 0xA000000000000) = some (.reservedOperation 10) ∧
    stepRefusal (busy.presentNext 0xF64C896000000) = some (.reservedOperation 15) ∧
    stepRefusal (busy.presentNext 0x2000006000000) = some (.reservedCoordinate 6) := by decide

/-- The encoder writes unread bits as zero (R41): V-DIST-15, V-CIDX-09. -/
theorem test_encode_dist : encode (.dist 0x64C896 0xAFAFAF) = 0x464C896AFAFAF := by decide
theorem test_encode_cidxr : encode (.cidxr 196) = 0x50000C4000000 := by decide

/-- The opcode table's own numbering: the row's match value is an instruction of 56 bits (7 bytes). -/
theorem test_decodeTableWord_rows :
    decodeTableWord 56 0x0000000000000 = some (.dec 0) ∧
    decodeTableWord 56 0x9000000000000 = some (.cubeidx 0) ∧
    decodeTableWord 56 0xA000000000000 = none ∧ decodeTableWord 56 (2 ^ 52) = none := by decide

/-- The first step after reset answers the request placed for it: V-DEC-21. -/
theorem test_first_step_after_reset_answers :
    (match step (State.reset.withFetchWord 56 0x0000032000000) with
     | .next t => decide (t.responses = [0x0000FFD7] ∧ t.requests = [])
     | _ => false) = true := by decide

/-! ### Vectors of `95_test_vectors.md`, one or two per operation -/

/-- V-CUBEVAL-04, V-CUBEVAL-07. -/
theorem test_cubeval_3 : lastResponse (.cubeval 3) busy = some 0x000000AF := by decide
theorem test_cubeval_6_refused : refusal (.cubeval 6) busy = some (.reservedCoordinate 6) := by decide
/-- V-DEC-05 with V-DEC-34: blue lowest, the last cube index but one. -/
theorem test_dec_system_and_cube :
    lastResponse (.dec 4) busy = some 0x000000EE ∧ lastResponse (.dec 230) busy = some 0x00FFFFD7 := by
  decide
/-- V-DEC-36, V-DEC-41: the ends of the ramp. -/
theorem test_dec_ramp_ends :
    lastResponse (.dec 232) busy = some 0x00080808 ∧ lastResponse (.dec 255) busy = some 0x00EEEEEE := by
  decide
/-- V-LUM-02, V-LUM-06: sums beyond a signed 32-bit integer. -/
theorem test_lum_does_not_wrap :
    lastResponse (.lum 0xFFFFFF) busy = some 255 ∧ lastResponse (.lum 0x64C896) busy = some 175 := by
  decide
/-- V-LUM-07, V-LUM-11: rounding is down. -/
theorem test_lum_rounds_down :
    lastResponse (.lum 0x040000) busy = some 0 ∧ lastResponse (.lum 0x00000D) busy = some 0 := by decide
/-- V-DIST-13, V-DIST-14: the weights follow the sum of the reds. -/
theorem test_dist_weights :
    lastResponse (.dist 0xFF0000 0xFE0000) busy = some 1533 ∧
    lastResponse (.dist 0xFF0001 0xFF0000) busy = some 1024 := by decide
/-- V-DIST-02, V-DIST-15. -/
theorem test_dist_values :
    lastResponse (.dist 0x000000 0xFFFFFF) busy = some 299505150 ∧
    lastResponse (.dist 0x64C896 0xAFAFAF) busy = some 9373750 := by decide
/-- V-CIDX-08, V-CIDX-09, and the other sense of V-CIDX-09. -/
theorem test_cidxr_threshold :
    lastResponse (.cidxr 195) busy = some 3 ∧ lastResponse (.cidxr 196) busy = some 4 ∧
    lastResponse (.cidxr 196) busyLower = some 3 := by decide
/-- V-CIDX-16, V-CIDX-17. -/
theorem test_cidxg_threshold :
    lastResponse (.cidxg 115) busy = some 1 ∧ lastResponse (.cidxg 116) busy = some 2 := by decide
/-- V-CIDX-26, V-CIDX-27. -/
theorem test_cidxb_threshold :
    lastResponse (.cidxb 34) busy = some 0 ∧ lastResponse (.cidxb 35) busy = some 1 := by decide
/-- V-GLUT-04 (pinned), V-GLUT-33, V-GLUT-58 (the spec's default, log 3). -/
theorem test_glut_entries :
    lastResponse (.glut 175) busy = some 145 ∧ lastResponse (.glut 4) busy = some 16 ∧
    lastResponse (.glut 247) busy = some 231 := by decide +kernel
/-- V-CUBEIDX-04, V-CUBEIDX-06 under both senses. -/
theorem test_cubeidx_values :
    lastResponse (.cubeidx (rgb 95 135 175)) busy = some 67 ∧
    lastResponse (.cubeidx (rgb 38 36 35)) busy = some 59 ∧
    lastResponse (.cubeidx (rgb 38 36 35)) busyLower = some 16 := by decide
/-- V-ENC-03 (cube), V-ENC-25 (grey), V-ENC-10 (fast path). -/
theorem test_enc_paths :
    lastResponse (.enc (rgb 100 200 150)) busy = some 78 ∧
    lastResponse (.enc (rgb 128 128 129)) busy = some 244 ∧
    lastResponse (.enc (rgb 128 128 128)) busy = some 244 := by decide +kernel
/-- V-ENC-38: a tie goes to the cube candidate; 59 under the other sense. V-ENC-35: rests on D6. -/
theorem test_enc_tie_and_senses :
    lastResponse (.enc (rgb 40 110 115)) busy = some 60 ∧
    lastResponse (.enc (rgb 40 110 115)) busyLower = some 59 ∧
    lastResponse (.enc (rgb 0 1 46)) busy = some 16 := by decide +kernel

/-- R16 prints the default table twice; its runs give the same 256 entries as its rows. -/
theorem test_default_table_is_its_runs :
    greyLutDefault.toList =
      ([(5, 16), (9, 232), (10, 233), (10, 234), (10, 235), (10, 236), (10, 237), (10, 238), (10, 239),
        (8, 240), (5, 59), (7, 241), (10, 242), (10, 243), (8, 244), (5, 102), (7, 245), (10, 246),
        (10, 247), (8, 248), (5, 145), (7, 249), (10, 250), (10, 251), (8, 252), (5, 188), (7, 253),
        (10, 254), (13, 255), (9, 231)] : List (Nat × Byte)).flatMap fun p => List.replicate p.1 p.2 := by decide +kernel

/-! ### The requester -/

/-- P1: CONVERT 100, 200, 150 prints 78 and `5fd787`. -/
theorem test_convert_colour :
    convertColour State.reset.build (rgb 100 200 150) = some (78, 0x5FD787) ∧
    printColour 0x5FD787 = ['5', 'f', 'd', '7', '8', '7'] := by decide +kernel

/-- `ENC 100, 200, 150 ; S6`: three decimal bytes and a comment. -/
theorem test_assemble_enc :
    assemble ['E', 'N', 'C', ' ', '1', '0', '0', ',', ' ', '2', '0', '0', ',', ' ', '1', '5', '0', ' ', ';',
      ' ', 'S', '6'] = some (.request (.enc 0x64C896)) := by decide

/-- `DIST 1,2,3 ; 0xFFFFFF ; c`: the first `;` separates the colours. -/
theorem test_assemble_dist :
    assemble ['D', 'I', 'S', 'T', ' ', '1', ',', '2', ',', '3', ' ', ';', ' ', '0', 'x', 'F', 'F', 'F', 'F',
      'F', 'F', ' ', ';', ' ', 'c'] = some (.request (.dist 0x010203 0xFFFFFF)) := by decide

/-- `DEC 0x32`, `-> 65495`, `CONVERT 256` (a usage error, R42). -/
theorem test_assemble_other_lines :
    assemble ['D', 'E', 'C', ' ', '0', 'x', '3', '2'] = some (.request (.dec 50)) ∧
    assemble ['-', '>', ' ', '6', '5', '4', '9', '5'] = some (.response 0x0000FFD7) ∧
    assemble ['C', 'O', 'N', 'V', 'E', 'R', 'T', ' ', '2', '5', '6'] = none := by decide

/-! ### Witnesses: for each obligation with hypotheses, a state and operands that meet them all, one for
each clause -/

/-- `BitsNotReadDoNotAffectTheResponse`, a byte operation: V-DEC-21 and V-DEC-42. -/
theorem witness_unread_bits_of_dec :
    (0x0000032000000 : Request) ≠ 0x0ABCD32123456 ∧
    (0x0000032000000 : Request).toNat / 2 ^ 48 = (0x0ABCD32123456 : Request).toNat / 2 ^ 48 ∧
    (0x0000032000000 : Request).toNat / 2 ^ 24 % 2 ^ 8 =
      (0x0ABCD32123456 : Request).toNat / 2 ^ 24 % 2 ^ 8 := by decide

/-- The same for GLUT, op 8, the last byte operation. -/
theorem witness_unread_bits_of_glut :
    (0x8000080000000 : Request).toNat / 2 ^ 48 = (0x8FFFF80FFFFFF : Request).toNat / 2 ^ 48 ∧
    (0x8000080000000 : Request).toNat / 2 ^ 48 = 8 ∧
    (0x8000080000000 : Request).toNat / 2 ^ 24 % 2 ^ 8 =
      (0x8FFFF80FFFFFF : Request).toNat / 2 ^ 24 % 2 ^ 8 := by decide

/-- The same for CUBEVAL: V-CUBEVAL-04 and V-CUBEVAL-09. -/
theorem witness_unread_bits_of_cubeval :
    (0x2000003000000 : Request).toNat / 2 ^ 48 = (0x2FFFFFBFFFFFF : Request).toNat / 2 ^ 48 ∧
    (0x2000003000000 : Request).toNat / 2 ^ 48 = 2 ∧
    (0x2000003000000 : Request).toNat / 2 ^ 24 % 2 ^ 3 =
      (0x2FFFFFBFFFFFF : Request).toNat / 2 ^ 24 % 2 ^ 3 := by decide

/-- The same for a colour operation: V-ENC-03 and V-ENC-72. -/
theorem witness_unread_bits_of_enc :
    (0x164C896000000 : Request).toNat / 2 ^ 48 = 1 ∧
    (0x164C896000000 : Request).toNat / 2 ^ 24 = (0x164C896FFFFFF : Request).toNat / 2 ^ 24 := by decide

/-- The same for DIST, which reads every bit: only equal words agree. -/
theorem witness_unread_bits_of_dist :
    (0x464C896AFAFAF : Request).toNat / 2 ^ 48 = 4 ∧
    (0x464C896AFAFAF : Request).toNat % 2 ^ 24 = 0xAFAFAF := by decide

/-- `ReservedOperationCodesAreRefused`: its lowest and its highest code. -/
theorem witness_reserved_operation_codes :
    10 ≤ (0xA000000000000 : Request).toNat / 2 ^ 48 ∧
    10 ≤ (0xFFFFFFFFFFFFF : Request).toNat / 2 ^ 48 ∧
    ¬ 10 ≤ (0x9FFFFFFFFFFFF : Request).toNat / 2 ^ 48 := by decide

/-- `StepRunsTheDecodedRequest`. -/
theorem witness_decoded_request_waits :
    busy.requests = [0x0000032000000] ∧ decode 0x0000032000000 = .ok (.dec 50) :=
  ⟨by decide, rfl⟩

/-- `StepWithoutRequestChangesNothing`: a block that has answered and has no request waiting. -/
theorem witness_no_request : ({ busy with requests := [] } : State).requests = [] := by decide

/-- `DefinedRequestIsAnsweredByOneStep`, `NoOperationRaisesAnException`: DEC 0, CUBEVAL 5, and the last word of CUBEIDX; and words that
are not defined, for `RunWithReservedRequestIsRefused`. -/
theorem witness_defined_requests :
    DefinedRequest 0x0000000000000 ∧ DefinedRequest 0x2000005000000 ∧ DefinedRequest 0x9FFFFFFFFFFFF ∧
    ¬ DefinedRequest 0x2000006000000 ∧ ¬ DefinedRequest 0xA000000000000 := by decide

/-- `RunAnswersEveryRequestInOrder`, `RunWithReservedRequestIsRefused`: a list of two defined requests,
and a reserved one to put after them. -/
theorem witness_defined_list :
    (∀ q ∈ ([0x0000032000000, 0x164C896000000] : List Request), DefinedRequest q) ∧
    ¬ DefinedRequest 0xF64C896000000 := by
  refine ⟨?_, by decide⟩
  simp only [List.forall_mem_cons]
  exact ⟨by decide, by decide, by simp⟩

/-- `SafeRunNeverStops`: a state with a request waiting. -/
theorem witness_safe_run : busy.requests ≠ [] ∧ SafeRun busy := by
  refine ⟨by decide, ?_⟩
  simp only [SafeRun, busy, List.forall_mem_cons]
  exact ⟨by decide, by simp⟩

/-- `ResponseDependsOnRequestAndBuildOnly`: two states of one build that differ in both lists, and a step
that answers. -/
theorem witness_same_build_other_history :
    busy.build = State.reset.build ∧ busy.responses ≠ State.reset.responses ∧
    busy.requests ≠ State.reset.requests ∧
    step (busy.presentNext 0x2000003000000) = .next { busy with responses := [7, 0xAF] } :=
  ⟨rfl, by decide, by decide, rfl⟩

/-- `GlutGivesTheTableEntry`, `GreyCandidateIsAlwaysAGrey`, `EncNeverGivesASystemColour`,
`EncInvertsDecAboveTheSystemColours`: a state built with an admissible table. -/
theorem witness_admissible_table : GreyLutAdmissible busy.build.greyLut := by decide +kernel

/-- The same table with the other threshold sense. -/
theorem witness_admissible_table_lower : GreyLutAdmissible busyLower.build.greyLut :=
  witness_admissible_table

/-- `EveryStepKeepsTheInvariant`: the invariant, at the bound of the responses' clause, at a state that
steps to a next state. -/
theorem witness_invariant_and_step :
    Inv { busy with responses := [299505150] } ∧
    step (({ busy with responses := [299505150] } : State).presentNext 0x2000003000000) =
      .next { busy with responses := [299505150, 0xAF] } :=
  ⟨⟨witness_admissible_table, by simp [maxResponse]⟩, rfl⟩

/-- `RequestPresentedLaterWaitsItsTurn`: a state with a request waiting that steps to a next state. -/
theorem witness_waiting_request_steps :
    busy.requests ≠ [] ∧ step busy = .next { busy with requests := [], responses := [7, 0xFFD7] } :=
  ⟨by decide, rfl⟩

/-- `OperationAddsOneResponseAndWritesNothing`, `NoRunChangesTheBuildParameters`. -/
theorem witness_operation_and_run_end :
    exec (.cubeval 3) busy = .next { busy with responses := [7, 0xAF] } ∧
    Sys2Proof.core.run 1 busy = .next ({ busy with requests := [], responses := [7, 0xFFD7] } : State) :=
  ⟨rfl, rfl⟩

/-- `DefaultGreyTableIsNearestGreyTiesToLower`: a cube grey and the last ramp index. -/
theorem witness_grey_indices : (16 : Byte) ∈ greyIndices ∧ (255 : Byte) ∈ greyIndices := by decide

/-- `CubevalGivesTheListedIntensity`: both sides of its two clauses. -/
theorem witness_coordinates :
    (0 : BitVec 3).toNat < 6 ∧ (5 : BitVec 3).toNat < 6 ∧ 6 ≤ (6 : BitVec 3).toNat ∧
    6 ≤ (7 : BitVec 3).toNat := by decide

/-- `CubeIndexAndCoordinatesAreInverse`, `CubeidxOfACubeColourIsItsOwnIndex`: the ends of the cube;
`RampIndexStandsForItsGreyLevel`, `EncInvertsDecAboveTheSystemColours`: the ends of the ramp;
`DecIsInjectiveAboveTheSystemColours`, `EncNeverGivesASystemColour`: the ends of the system colours. -/
theorem witness_index_ranges :
    (16 ≤ (16 : Byte).toNat ∧ (16 : Byte).toNat ≤ 231) ∧ (16 ≤ (231 : Byte).toNat ∧ (231 : Byte).toNat ≤ 231) ∧
    232 ≤ (232 : Byte).toNat ∧ 232 ≤ (255 : Byte).toNat ∧ (0 : Byte).toNat < 16 ∧ (15 : Byte).toNat < 16 := by
  decide

/-- `DecIsInjectiveAboveTheSystemColours`: the premises together of its first and of its second clause. -/
theorem witness_equal_colours :
    16 ≤ (196 : Byte).toNat ∧ exec (.dec 196) busy = exec (.dec 196) busy ∧
    (15 : Byte).toNat < 16 ∧ exec (.dec 15) busy = exec (.dec 15) busy :=
  ⟨by decide, rfl, by decide, rfl⟩

/-- `LuminanceKeepsGreysAndIsMonotone`: two colours ordered in every channel. -/
theorem witness_ordered_colours :
    (red (rgb 4 0 13)).toNat ≤ (red (rgb 5 0 13)).toNat ∧ (green (rgb 4 0 13)).toNat ≤ (green (rgb 5 0 13)).toNat ∧
    (blue (rgb 4 0 13)).toNat ≤ (blue (rgb 5 0 13)).toNat := by decide

/-- `GlutGivesTheTableEntry`: the pinned bytes at the ends of its two clauses. -/
theorem witness_pinned_bytes :
    (8 : Byte).toNat = 8 + 10 * 0 ∧ (238 : Byte).toNat = 8 + 10 * 23 ∧ (0 : Byte).toNat = 0 ∧
    (255 : Byte).toNat = 255 := by decide

/-- `DistanceIsZeroOnlyOnEqualAndSymmetric`: two colours that differ in one unit. -/
theorem witness_different_colours : (0x010000 : Rgb24) ≠ 0x000000 := by decide

/-- `CubeIndexFollowsTheThresholdChain`: the red thresholds ascend. -/
theorem witness_ascending_thresholds :
    memRead busy.build .threshR 0 < memRead busy.build .threshR 1 ∧
    memRead busy.build .threshR 1 < memRead busy.build .threshR 2 ∧
    memRead busy.build .threshR 2 < memRead busy.build .threshR 3 ∧
    memRead busy.build .threshR 3 < memRead busy.build .threshR 4 ∧ (38 : Byte) ≤ 39 := by decide

/-- `CidxrGivesTheRedCoordinate`, `CidxgGivesTheGreenCoordinate`, `CidxbGivesTheBlueCoordinate`,
`CubeidxComposesTheThreeCoordinates`, `ChannelsDifferOnlyAtSixBytes`: a block of the `upper` sense;
`LowerSenseCountsThresholdsBelowTheByte`: one of the `lower`. -/
theorem witness_threshold_senses :
    busy.build.threshSense = .upper ∧ busyLower.build.threshSense = .lower := by decide

/-- `EncChoosesTheNearerOfTwoCandidates`: a grey and a colour one step off it. -/
theorem witness_grey_and_near_grey :
    (red (rgb 128 128 128) = green (rgb 128 128 128) ∧ green (rgb 128 128 128) = blue (rgb 128 128 128)) ∧
    ¬ (red (rgb 128 128 129) = green (rgb 128 128 129) ∧ green (rgb 128 128 129) = blue (rgb 128 128 129)) := by
  decide

/-- `EncBreaksTheTieToTheCubeCandidate`. -/
theorem witness_tie_state : busy.build.threshSense = .upper ∧ busy.build.greyLut[95] = 59 := by decide +kernel

/-- `NoOperationRaisesAnException`: well-formed operations at the ends of the operand that has a check. -/
theorem witness_well_formed : (Instr.cubeval 0).WellFormed ∧ (Instr.cubeval 5).WellFormed := by decide

/-- `AssembledRequestsAreWellFormed`, `AssembleReadsBackEveryRenderedInstruction`: the last coordinate
the syntax has, and the first it has not. -/
theorem witness_assembled :
    assemble ['C', 'U', 'B', 'E', 'V', 'A', 'L', ' ', '5'] = some (.request (.cubeval 5)) ∧
    assemble ['C', 'U', 'B', 'E', 'V', 'A', 'L', ' ', '6'] = none ∧ (Instr.cubeval 5).WellFormed := by
  decide

end Sys2Proof.Tests
end

/-! PROOFS of the statements about state: the tables, the frame of an operation, and what a step and a
run keep (`10_state.md`). -/

namespace Sys2Proof.Proofs

open Sys2Proof Sys2Proof.Machine

/-! ### Packed colours -/

/-- R28: the packed colour as a number. -/
theorem toNat_rgb (r g b : Byte) :
    (rgb r g b).toNat = 65536 * r.toNat + 256 * g.toNat + b.toNat := by
  rw [rgb, BitVec.toNat_append, BitVec.toNat_append, ← Nat.shiftLeft_add_eq_or_of_lt b.isLt,
    ← Nat.shiftLeft_add_eq_or_of_lt g.isLt]
  omega

@[simp] theorem red_rgb (r g b : Byte) : red (rgb r g b) = r := by
  apply BitVec.eq_of_toNat_eq
  rw [red, BitVec.extractLsb'_toNat, toNat_rgb]
  omega

@[simp] theorem green_rgb (r g b : Byte) : green (rgb r g b) = g := by
  apply BitVec.eq_of_toNat_eq
  rw [green, BitVec.extractLsb'_toNat, toNat_rgb]
  omega

@[simp] theorem blue_rgb (r g b : Byte) : blue (rgb r g b) = b := by
  apply BitVec.eq_of_toNat_eq
  rw [blue, BitVec.extractLsb'_toNat, toNat_rgb]
  omega

/-! ### The range of a response (R33, R50) -/

/-- A byte and a byte differ by at most 255. -/
theorem squared_byte_sub_le (u v : Byte) : squared ((u.toNat : Int) - v.toNat) ≤ 65025 := by
  have hu := u.isLt
  have hv := v.isLt
  rw [squared]
  nlinarith [abs_le.mp (show |(u.toNat : Int) - v.toNat| ≤ 255 by rw [abs_le]; omega)]

theorem distance_le_maxResponse (x y : Rgb24) : distance x y ≤ maxResponse := by
  have hr := squared_byte_sub_le (red x) (red y)
  have hg := squared_byte_sub_le (green x) (green y)
  have hb := squared_byte_sub_le (blue x) (blue y)
  have hx := (red x).isLt
  have hy := (red y).isLt
  have hscore : distanceScore x y ≤ 299505150 := by
    simp only [distanceScore, distRBase, distGW, distBBase]
    nlinarith
  simp only [distance, maxResponse]
  omega

/-- A result of at most 24 bits is far below DIST's maximum. -/
theorem zext32_le_maxResponse {w : Nat} (hw : w ≤ 24) (v : BitVec w) :
    (zext32 v).toNat ≤ maxResponse := by
  have hv : v.toNat < 2 ^ 24 := lt_of_lt_of_le v.isLt (Nat.pow_le_pow_right (by decide) hw)
  rw [zext32_toNat (hw.trans (by decide))]
  exact hv.le.trans (by decide)

/-! ### What an operation and a step can do -/

/-- An operation in a block built as `b` either answers, with a response in range that is the same at
every state of that block, or is refused at every one of them. -/
theorem exec_answers_or_refuses (b : Build) (i : Instr) :
    (∃ r : Response, r.toNat ≤ maxResponse ∧ ∀ s : State, s.build = b → exec i s = answer s r) ∨
    (∃ why : Refusal, ∀ s : State, s.build = b → exec i s = .refused why) := by
  cases i with
  | dec n =>
    exact .inl ⟨zext32 (paletteDecode b n), zext32_le_maxResponse (by decide) _,
      fun s hs => by rw [exec_dec, hs]⟩
  | enc c =>
    exact .inl ⟨zext32 (paletteEncode b c), zext32_le_maxResponse (by decide) _,
      fun s hs => by rw [exec_enc, hs]⟩
  | cubeval k =>
    rcases Nat.lt_or_ge k.toNat 6 with hk | hk
    · exact .inl ⟨zext32 (cubeValue b ⟨k.toNat, hk⟩), zext32_le_maxResponse (by decide) _,
        fun s hs => by rw [exec_cubeval_of_lt hk, hs]⟩
    · exact .inr ⟨.reservedCoordinate k, fun s _ => exec_cubeval_of_ge hk s⟩
  | lum c =>
    exact .inl ⟨zext32 (luminance c), zext32_le_maxResponse (by decide) _, fun s _ => exec_lum c s⟩
  | dist x y =>
    refine .inl ⟨BitVec.ofNat 32 (distance x y), ?_, fun s _ => exec_dist x y s⟩
    rw [BitVec.toNat_ofNat]
    exact (Nat.mod_le _ _).trans (distance_le_maxResponse x y)
  | cidxr v =>
    exact .inl ⟨coordResponse (cubeIndexR b v), zext32_le_maxResponse (by decide) _,
      fun s hs => by rw [exec_cidxr, hs]⟩
  | cidxg v =>
    exact .inl ⟨coordResponse (cubeIndexG b v), zext32_le_maxResponse (by decide) _,
      fun s hs => by rw [exec_cidxg, hs]⟩
  | cidxb v =>
    exact .inl ⟨coordResponse (cubeIndexB b v), zext32_le_maxResponse (by decide) _,
      fun s hs => by rw [exec_cidxb, hs]⟩
  | glut v =>
    exact .inl ⟨zext32 (greyIndex b v), zext32_le_maxResponse (by decide) _,
      fun s hs => by rw [exec_glut, hs]⟩
  | cubeidx c =>
    exact .inl ⟨zext32 (cubeCandidate b c), zext32_le_maxResponse (by decide) _,
      fun s hs => by rw [exec_cubeidx, hs]⟩

/-- An operation that ends has given one response in range, which every state of the same build gives. -/
theorem exec_eq_next {i : Instr} {s t : State} (h : exec i s = .next t) :
    ∃ r : Response, r.toNat ≤ maxResponse ∧ t = s.respond r ∧
      ∀ s' : State, s'.build = s.build → exec i s' = .next (s'.respond r) := by
  obtain ⟨r, hr, hexec⟩ | ⟨why, hexec⟩ := exec_answers_or_refuses s.build i
  · exact ⟨r, hr, (answer_eq_next_iff s t r).mp (hexec s rfl ▸ h), hexec⟩
  · rw [hexec s rfl] at h
    cases h

theorem step_of_requests_nil {s : State} (hs : s.requests = []) : step s = .next s := by
  rw [step, takeRequest_of_nil hs, idle]

theorem step_of_decode_ok {s : State} {w : Request} {rest : List Request} {i : Instr}
    (hs : s.requests = w :: rest) (hw : decode w = .ok i) :
    step s = exec i { s with requests := rest } := by
  simp only [step, takeRequest_of_cons hs, hw]

theorem step_of_decode_error {s : State} {w : Request} {rest : List Request} {e : DecodeError}
    (hs : s.requests = w :: rest) (hw : decode w = .error e) : step s = refuseWord e := by
  simp only [step, takeRequest_of_cons hs, hw]

/-- A step that answers the oldest request runs the operation which that request names. -/
theorem exec_of_step_eq_next {s t : State} {w : Request} {rest : List Request}
    (hs : s.requests = w :: rest) (h : step s = .next t) :
    ∃ i : Instr, decode w = .ok i ∧ exec i { s with requests := rest } = .next t := by
  cases hw : decode w with
  | ok i => exact ⟨i, rfl, step_of_decode_ok hs hw ▸ h⟩
  | error e =>
    obtain ⟨why, hwhy⟩ := refuseWord_refused e
    rw [step_of_decode_error hs hw, hwhy] at h
    cases h

/-- All that a step can do: nothing, or take the oldest request and give one response in range. -/
theorem step_eq_next {s t : State} (h : step s = .next t) :
    t = s ∨ ∃ (w : Request) (rest : List Request) (r : Response), s.requests = w :: rest ∧
      r.toNat ≤ maxResponse ∧ t = State.respond { s with requests := rest } r := by
  cases hs : s.requests with
  | nil =>
    rw [step_of_requests_nil hs] at h
    cases h
    exact .inl rfl
  | cons w rest =>
    obtain ⟨i, -, hexec⟩ := exec_of_step_eq_next hs h
    obtain ⟨r, hr, ht, -⟩ := exec_eq_next hexec
    exact .inr ⟨w, rest, r, rfl, hr, ht⟩

theorem step_build {s t : State} (h : step s = .next t) : t.build = s.build := by
  obtain rfl | ⟨w, rest, r, -, -, rfl⟩ := step_eq_next h
  · rfl
  · rfl

/-- A run of one step more that ends begins with a step that ends. -/
theorem run_succ_eq_next {M : Host.Core} {n : Nat} {s t : M.State} (h : M.run (n + 1) s = .next t) :
    ∃ u : M.State, M.step s = .next u ∧ M.run n u = .next t := by
  rw [Host.Core.run] at h
  split at h
  next u hu => exact ⟨u, hu, h⟩
  next => cases h
  next => cases h

/-- What every step keeps, every run keeps. -/
theorem run_keeps {P : State → Prop} (hstep : ∀ s t : State, P s → step s = .next t → P t)
    (n : Nat) : ∀ s t : State, P s → Sys2Proof.core.run n s = .next t → P t := by
  induction n with
  | zero =>
    intro s t hs h
    cases h
    exact hs
  | succ n ih =>
    intro s t hs h
    obtain ⟨u, hu, hrun⟩ := run_succ_eq_next h
    exact ih u t (hstep s u hs hu) hrun

/-! ### The invariant, a run, the response -/

/-- Settles O17: a step leaves the build alone and adds at most one response, which is in range. -/
theorem everyStepKeepsTheInvariant : Obligations.EveryStepKeepsTheInvariant := by
  rintro s t ⟨hlut, hresp⟩ h
  refine ⟨step_build h ▸ hlut, ?_⟩
  obtain rfl | ⟨w, rest, r, -, hr, rfl⟩ := step_eq_next h
  · exact hresp
  · simpa [or_imp, forall_and, hr] using hresp

/-- Settles O12: the response of `exec_eq_next` is one for all states of the build. -/
theorem responseDependsOnRequestAndBuildOnly : Obligations.ResponseDependsOnRequestAndBuildOnly := by
  intro s s' t w hbuild h
  obtain ⟨i, hw, hexec⟩ := exec_of_step_eq_next (s.presentNext_requests w) h
  obtain ⟨r, -, ht, hsame⟩ := exec_eq_next hexec
  refine ⟨r, ht, ?_⟩
  rw [step_of_decode_ok (s'.presentNext_requests w) hw]
  exact hsame s' hbuild.symm

/-- Settles O20, by induction on the length of the run. -/
theorem noRunChangesTheBuildParameters : Obligations.NoRunChangesTheBuildParameters :=
  fun n s t => run_keeps (P := fun u => u.build = s.build)
    (fun _ _ hu h => (step_build h).trans hu) n s t rfl

/-- Settles O19: the state that is left is `s.respond r`. -/
theorem operationAddsOneResponseAndWritesNothing :
    Obligations.OperationAddsOneResponseAndWritesNothing := by
  intro i s t h
  obtain ⟨r, -, rfl, -⟩ := exec_eq_next h
  exact ⟨⟨r, s.respond_responses r⟩, s.respond_requests r, s.respond_build r, fun _ _ => rfl⟩

/-! ### The tables -/

/-- Settles O22, entry by entry. -/
theorem constantTablesHoldTheListedEntries : Obligations.ConstantTablesHoldTheListedEntries := by
  intro b
  exact ⟨rfl, rfl, rfl, rfl, rfl⟩

/-! ### The spec's default greyscale table (R16) -/

/-- R49: between two greys the distance is `4606 * sq(u - w)`. -/
theorem distance_grey (u w : Byte) :
    (distance (rgb u u u) (rgb w w w) : Int) = 4606 * ((u.toNat : Int) - w.toNat) ^ 2 := by
  have hscore : distanceScore (rgb u u u) (rgb w w w) = 4606 * ((u.toNat : Int) - w.toNat) ^ 2 := by
    simp only [distanceScore, red_rgb, green_rgb, blue_rgb, squared, distRBase, distGW, distBBase]
    ring
  rw [distance, hscore, Int.toNat_of_nonneg (by positivity)]

/-- R16's choice for the byte `v` between two grey levels: `g` is the nearer to `v`, or as near as `w`
and not above it. -/
def Prefers (v g w : Nat) : Prop := g = w ∨ (g < w ∧ 2 * v ≤ g + w) ∨ (w < g ∧ g + w < 2 * v)

/-- Between greys the preferred level is the one of smaller distance, ties to the lower: the difference
of the two squares is the product of `w - g` and `g + w - 2 * v`. -/
theorem Prefers.distance_le {v g w : Byte} (h : Prefers v.toNat g.toNat w.toNat) :
    distance (rgb v v v) (rgb g g g) ≤ distance (rgb v v v) (rgb w w w) ∧
      (distance (rgb v v v) (rgb g g g) = distance (rgb v v v) (rgb w w w) → g.toNat ≤ w.toNat) := by
  zify [distance_grey]
  obtain heq | ⟨hlt, hmid⟩ | ⟨hlt, hmid⟩ := h
  · simp [heq]
  · zify at hlt hmid
    have hprod := mul_nonneg (sub_nonneg.mpr hlt.le) (sub_nonneg.mpr hmid)
    exact ⟨by linarith only [hprod], fun _ => hlt.le⟩
  · zify at hlt hmid
    have hprod := mul_pos (sub_pos.mpr hlt) (sub_pos.mpr hmid)
    exact ⟨by linarith only [hprod], fun heq => by linarith only [hprod, heq]⟩

/-- The grey index of the lowest level, with that level (`g(c)` of R16). -/
def darkestGrey : Byte × Byte := (16, 0)

/-- The other 29 grey indices with their levels, in ascending level. -/
def lighterGreys : List (Byte × Byte) :=
  [(232, 8), (233, 18), (234, 28), (235, 38), (236, 48), (237, 58), (238, 68), (239, 78), (240, 88),
   (59, 95), (241, 98), (242, 108), (243, 118), (244, 128), (102, 135), (245, 138), (246, 148),
   (247, 158), (248, 168), (145, 175), (249, 178), (250, 188), (251, 198), (252, 208), (188, 215),
   (253, 218), (254, 228), (255, 238), (231, 255)]

/-- Each of these indices decodes to the grey of its level, in any block. -/
theorem paletteDecode_grey (b : Build) :
    ∀ p ∈ darkestGrey :: lighterGreys, paletteDecode b p.1 = rgb p.2 p.2 p.2 :=
  List.map_inj_left.mp rfl

theorem greys_perm_greyIndices : ((darkestGrey :: lighterGreys).map Prod.fst).Perm greyIndices := by
  decide

theorem greys_ascend :
    (darkestGrey :: lighterGreys).Pairwise fun p q => p.2.toNat < q.2.toNat := by
  decide

/-- R16's choice for the byte `v` among `p :: ps`, greys in ascending level: the first that is no
further from `v` than the one after it. -/
def nearestGrey (v : Nat) : Byte × Byte → List (Byte × Byte) → Byte × Byte
  | p, [] => p
  | p, q :: qs => if 2 * v ≤ p.2.toNat + q.2.toNat then p else nearestGrey v q qs

theorem nearestGrey_mem (v : Nat) (p : Byte × Byte) (ps : List (Byte × Byte)) :
    nearestGrey v p ps ∈ p :: ps := by
  induction ps generalizing p with
  | nil => simp [nearestGrey]
  | cons q qs ih =>
    rw [nearestGrey]
    split
    · exact List.mem_cons_self
    · exact List.mem_cons_of_mem p (ih q)

/-- The scan is right: the grey it finds is preferred to every grey of the list. -/
theorem nearestGrey_prefers (v : Nat) (p : Byte × Byte) (ps : List (Byte × Byte))
    (hasc : (p :: ps).Pairwise fun x y => x.2.toNat < y.2.toNat) :
    ∀ x ∈ p :: ps, Prefers v (nearestGrey v p ps).2.toNat x.2.toNat := by
  induction ps generalizing p with
  | nil => simp [nearestGrey, Prefers]
  | cons q qs ih =>
    obtain ⟨hp, htail⟩ := List.pairwise_cons.mp hasc
    have hq : ∀ x ∈ q :: qs, q.2.toNat ≤ x.2.toNat := by
      simpa using fun a b hx => (List.rel_of_pairwise_cons htail hx).le
    have hpq := hp q List.mem_cons_self
    intro x hx
    rw [nearestGrey]
    unfold Prefers at ih ⊢
    split
    next hmid =>
      obtain rfl | hx := List.mem_cons.mp hx
      · exact .inl rfl
      · have := hq x hx
        omega
    next hmid =>
      obtain rfl | hx := List.mem_cons.mp hx
      · have hfirst := ih q htail q List.mem_cons_self
        have := hq _ (nearestGrey_mem v q qs)
        omega
      · exact ih q htail x hx

/-- The printed table is the scan's result at every byte. -/
theorem greyLutDefault_toList : greyLutDefault.toList =
    (List.range 256).map fun v => (nearestGrey v darkestGrey lighterGreys).1 := by
  simp only [greyLutDefault, Vector.toList_append]
  decide +kernel

theorem greyLutDefault_getElem (v : Nat) (hv : v < 256) :
    greyLutDefault[v] = (nearestGrey v darkestGrey lighterGreys).1 := by
  rw [← Vector.getElem_toList (by simpa using hv)]
  simp only [greyLutDefault_toList, List.getElem_map, List.getElem_range]

theorem greyLutDefault_admissible : GreyLutAdmissible greyLutDefault := by
  refine ⟨fun v => ?_, fun k => ?_, ?_⟩
  · rw [Fin.getElem_fin, greyLutDefault_getElem]
    exact greys_perm_greyIndices.mem_iff.mp (List.mem_map_of_mem (nearestGrey_mem ..))
  · rw [greyLutDefault_getElem]
    revert k
    decide
  · simp only [GreyLutCubePinned, greyLutDefault_getElem]
    decide

/-- Settles O18: reset has the default table and nothing answered. -/
theorem resetStateSatisfiesTheInvariant : Obligations.ResetStateSatisfiesTheInvariant :=
  ⟨⟨greyLutDefault_admissible, by simp⟩, rfl, rfl, rfl, rfl⟩

/-- Settles O23: the table is the scan, the scan's grey is preferred to every other, and preference is
R16's order of distances. -/
theorem defaultGreyTableIsNearestGreyTiesToLower :
    Obligations.DefaultGreyTableIsNearestGreyTiesToLower := by
  refine ⟨greyLutDefault_admissible, fun b v c hc => ?_⟩
  have hfound := nearestGrey_mem v.toNat darkestGrey lighterGreys
  obtain ⟨p, hp, rfl⟩ := List.mem_map.mp (greys_perm_greyIndices.mem_iff.mpr hc)
  refine ⟨greyLutDefault_admissible.1 ⟨v.toNat, v.isLt⟩, ?_⟩
  simp only [greyLutDefault_getElem, paletteDecode_grey b _ hfound, paletteDecode_grey b p hp, red_rgb]
  exact (nearestGrey_prefers v.toNat darkestGrey lighterGreys greys_ascend p hp).distance_le

end Sys2Proof.Proofs

/-! PROOFS of the statements about encoding: request words and their decoder, packed colours, the
reserved requests, the palette's cube and ramp, CONVERT, and the textual form (`30_encoding.md`). -/

namespace Sys2Proof.Proofs

open Sys2Proof Sys2Proof.Machine Sys2Proof.Laws

/-! ### The fields of a request word -/

/-- R32: the request word as a number. -/
theorem toNat_request (op : BitVec 4) (a b : BitVec 24) :
    (request op a b).toNat = op.toNat * 2 ^ 48 + a.toNat * 2 ^ 24 + b.toNat := by
  rw [request, BitVec.toNat_append, BitVec.toNat_append, ← Nat.shiftLeft_add_eq_or_of_lt b.isLt,
    ← Nat.shiftLeft_add_eq_or_of_lt a.isLt]
  omega

theorem toNat_opField (w : Request) : (opField w).toNat = w.toNat / 2 ^ 48 := by
  rw [opField, BitVec.extractLsb'_toNat]
  omega

theorem toNat_operandA (w : Request) : (operandA w).toNat = w.toNat / 2 ^ 24 % 2 ^ 24 := by
  rw [operandA, BitVec.extractLsb'_toNat, Nat.shiftRight_eq_div_pow]

theorem toNat_operandB (w : Request) : (operandB w).toNat = w.toNat % 2 ^ 24 := by
  rw [operandB, BitVec.extractLsb'_toNat, Nat.shiftRight_zero]

/-- R34: a byte operand is `a[7:0]`. -/
theorem toNat_byteOperand (w : Request) : (byteOperand w).toNat = w.toNat / 2 ^ 24 % 2 ^ 8 := by
  rw [byteOperand, BitVec.toNat_setWidth, toNat_operandA, Nat.mod_mod_of_dvd _ (by decide)]

/-- R34: CUBEVAL's operand is `a[2:0]`. -/
theorem toNat_coordOperand (w : Request) : (coordOperand w).toNat = w.toNat / 2 ^ 24 % 2 ^ 3 := by
  rw [coordOperand, BitVec.toNat_setWidth, toNat_operandA, Nat.mod_mod_of_dvd _ (by decide)]

@[simp] theorem operandA_request (op : BitVec 4) (a b : BitVec 24) : operandA (request op a b) = a := by
  apply BitVec.eq_of_toNat_eq
  rw [toNat_operandA, toNat_request]
  omega

@[simp] theorem operandB_request (op : BitVec 4) (a b : BitVec 24) : operandB (request op a b) = b := by
  apply BitVec.eq_of_toNat_eq
  rw [toNat_operandB, toNat_request]
  omega

theorem operandA_encode (i : Instr) : operandA (encode i) = encodeA i := operandA_request ..

theorem operandB_encode (i : Instr) : operandB (encode i) = encodeB i := operandB_request ..

/-- A byte operand, zero-extended into `a`, is read back from its low bits. -/
theorem byteOperand_encode {i : Instr} {v : Byte} (h : encodeA i = v.setWidth 24) :
    byteOperand (encode i) = v := by
  rw [byteOperand, operandA_encode, h, BitVec.setWidth_setWidth_of_le v (by decide), BitVec.setWidth_eq]

/-- A coordinate, zero-extended into `a`, is read back from its low bits. -/
theorem coordOperand_encode {i : Instr} {k : BitVec 3} (h : encodeA i = k.setWidth 24) :
    coordOperand (encode i) = k := by
  rw [coordOperand, operandA_encode, h, BitVec.setWidth_setWidth_of_le k (by decide),
    BitVec.setWidth_eq]

/-! ### The decoder, row by row (R34, R35, R38) -/

section Rows

variable {w : Request}

theorem decode_dec (h : (opField w).toNat = 0) : decode w = .ok (.dec (byteOperand w)) := by
  simp only [decode, h]

theorem decode_enc (h : (opField w).toNat = 1) : decode w = .ok (.enc (operandA w)) := by
  simp only [decode, h]

theorem decode_cubeval (h : (opField w).toNat = 2) : decode w = .ok (.cubeval (coordOperand w)) := by
  simp only [decode, h]

theorem decode_lum (h : (opField w).toNat = 3) : decode w = .ok (.lum (operandA w)) := by
  simp only [decode, h]

theorem decode_dist (h : (opField w).toNat = 4) :
    decode w = .ok (.dist (operandA w) (operandB w)) := by
  simp only [decode, h]

theorem decode_cidxr (h : (opField w).toNat = 5) : decode w = .ok (.cidxr (byteOperand w)) := by
  simp only [decode, h]

theorem decode_cidxg (h : (opField w).toNat = 6) : decode w = .ok (.cidxg (byteOperand w)) := by
  simp only [decode, h]

theorem decode_cidxb (h : (opField w).toNat = 7) : decode w = .ok (.cidxb (byteOperand w)) := by
  simp only [decode, h]

theorem decode_glut (h : (opField w).toNat = 8) : decode w = .ok (.glut (byteOperand w)) := by
  simp only [decode, h]

theorem decode_cubeidx (h : (opField w).toNat = 9) : decode w = .ok (.cubeidx (operandA w)) := by
  simp only [decode, h]

theorem decode_reserved (h : 10 ≤ (opField w).toNat) :
    decode w = .error (.reservedOperation (opField w)) := by
  rw [decode]
  split
  case h_11 => rfl
  all_goals omega

end Rows

/-- The code read back from an operation's own request word is its row's. -/
theorem toNat_opField_encode (i : Instr) : (opField (encode i)).toNat = (opcode i).toNat :=
  congrArg BitVec.toNat (opField_request _ _ _)

/-- Settles O1: the code selects the operation's own row, and the row reads the operand where `encode`
wrote it. -/
theorem decodeReadsBackEveryEncodedInstruction : Obligations.DecodeReadsBackEveryEncodedInstruction := by
  intro i
  have hop := toNat_opField_encode i
  cases i with
  | dec n => rw [decode_dec hop, byteOperand_encode rfl]
  | enc c => rw [decode_enc hop, operandA_encode, encodeA]
  | cubeval k => rw [decode_cubeval hop, coordOperand_encode rfl]
  | lum c => rw [decode_lum hop, operandA_encode, encodeA]
  | dist x y => rw [decode_dist hop, operandA_encode, operandB_encode, encodeA, encodeB]
  | cidxr v => rw [decode_cidxr hop, byteOperand_encode rfl]
  | cidxg v => rw [decode_cidxg hop, byteOperand_encode rfl]
  | cidxb v => rw [decode_cidxb hop, byteOperand_encode rfl]
  | glut v => rw [decode_glut hop, byteOperand_encode rfl]
  | cubeidx c => rw [decode_cubeidx hop, operandA_encode, encodeA]

/-- R32: the request word of an operation as a number. -/
theorem toNat_encode (i : Instr) : (encode i).toNat =
    (opcode i).toNat * 2 ^ 48 + (encodeA i).toNat * 2 ^ 24 + (encodeB i).toNat :=
  toNat_request ..

/-- Settles O2: the code, the operand zero-extended into `a`, and `b`, as numbers. -/
theorem requestWordIsOpThenAThenB : Obligations.RequestWordIsOpThenAThenB := by
  have hbyte (v : Byte) : (v.setWidth 24).toNat = v.toNat := BitVec.toNat_setWidth_of_le (by decide)
  have hcoord (k : BitVec 3) : (k.setWidth 24).toNat = k.toNat :=
    BitVec.toNat_setWidth_of_le (by decide)
  and_intros
  all_goals
    intros
    simp [toNat_encode, opcode, encodeA, encodeB, hbyte, hcoord, -BitVec.toNat_setWidth]

/-- Settles O3: each branch is the decoder's row for that code. -/
theorem decodeSelectsByOpAndReadsTheListedBits :
    Obligations.DecodeSelectsByOpAndReadsTheListedBits := by
  intro w op a b
  have hop : (opField w).toNat = op := toNat_opField w
  have hbyte : BitVec.ofNat 8 (a % 2 ^ 8) = byteOperand w := by
    rw [Nat.mod_mod_of_dvd _ (by decide), ← toNat_byteOperand, BitVec.ofNat_toNat, BitVec.setWidth_eq]
  have hcoord : BitVec.ofNat 3 (a % 2 ^ 3) = coordOperand w := by
    rw [Nat.mod_mod_of_dvd _ (by decide), ← toNat_coordOperand, BitVec.ofNat_toNat, BitVec.setWidth_eq]
  have ha : BitVec.ofNat 24 a = operandA w := by
    rw [← BitVec.setWidth_eq (operandA w), ← BitVec.ofNat_toNat, toNat_operandA]
  have hb : BitVec.ofNat 24 b = operandB w := by
    rw [← BitVec.setWidth_eq (operandB w), ← BitVec.ofNat_toNat, toNat_operandB]
  have hfield : BitVec.ofNat 4 op = opField w := by rw [← hop, BitVec.ofNat_toNat, BitVec.setWidth_eq]
  rw [hbyte, hcoord, ha, hb, hfield, ← hop]
  match h : (opField w).toNat with
  | 0 => exact decode_dec h
  | 1 => exact decode_enc h
  | 2 => exact decode_cubeval h
  | 3 => exact decode_lum h
  | 4 => exact decode_dist h
  | 5 => exact decode_cidxr h
  | 6 => exact decode_cidxg h
  | 7 => exact decode_cidxb h
  | 8 => exact decode_glut h
  | 9 => exact decode_cubeidx h
  | n + 10 => simp [decode_reserved (show 10 ≤ (opField w).toNat by omega)]

/-- The step for a request presented next depends on the word through its decoding alone. -/
theorem step_presentNext_congr (s : State) {w w' : Request} (h : decode w = decode w') :
    step (s.presentNext w) = step (s.presentNext w') := by
  simp only [step, takeRequest_presentNext, h]

/-- Settles O4: words that agree on the code and on the bits its row reads decode alike. -/
theorem bitsNotReadDoNotAffectTheResponse : Obligations.BitsNotReadDoNotAffectTheResponse := by
  intro s w w' hop hbyte hcoord hcolour hb
  apply step_presentNext_congr
  rw [← toNat_opField w] at hop hbyte hcoord hcolour hb
  replace hop : opField w = opField w' := BitVec.eq_of_toNat_eq (hop.trans (toNat_opField w').symm)
  replace hbyte (h : (opField w).toNat ∈ [0, 5, 6, 7, 8]) : byteOperand w = byteOperand w' :=
    BitVec.eq_of_toNat_eq (by rw [toNat_byteOperand, toNat_byteOperand, hbyte h])
  replace hcoord (h : (opField w).toNat = 2) : coordOperand w = coordOperand w' :=
    BitVec.eq_of_toNat_eq (by rw [toNat_coordOperand, toNat_coordOperand, hcoord h])
  have ha (h : (opField w).toNat ∈ [1, 3, 4, 9]) : operandA w = operandA w' :=
    BitVec.eq_of_toNat_eq (by rw [toNat_operandA, toNat_operandA, hcolour h])
  replace hb (h : (opField w).toNat = 4) : operandB w = operandB w' :=
    BitVec.eq_of_toNat_eq (by rw [toNat_operandB, toNat_operandB, hb h])
  match h : (opField w).toNat with
  | 0 => rw [decode_dec h, decode_dec (hop ▸ h), hbyte (by simp [h])]
  | 1 => rw [decode_enc h, decode_enc (hop ▸ h), ha (by simp [h])]
  | 2 => rw [decode_cubeval h, decode_cubeval (hop ▸ h), hcoord h]
  | 3 => rw [decode_lum h, decode_lum (hop ▸ h), ha (by simp [h])]
  | 4 => rw [decode_dist h, decode_dist (hop ▸ h), ha (by simp [h]), hb h]
  | 5 => rw [decode_cidxr h, decode_cidxr (hop ▸ h), hbyte (by simp [h])]
  | 6 => rw [decode_cidxg h, decode_cidxg (hop ▸ h), hbyte (by simp [h])]
  | 7 => rw [decode_cidxb h, decode_cidxb (hop ▸ h), hbyte (by simp [h])]
  | 8 => rw [decode_glut h, decode_glut (hop ▸ h), hbyte (by simp [h])]
  | 9 => rw [decode_cubeidx h, decode_cubeidx (hop ▸ h), ha (by simp [h])]
  | n + 10 =>
    have hreserved : 10 ≤ (opField w).toNat := by omega
    rw [decode_reserved hreserved, decode_reserved (hop ▸ hreserved), hop]

/-! ### Packed colours (R28) -/

theorem toNat_red (c : Rgb24) : (red c).toNat = c.toNat / 65536 := by
  rw [red, BitVec.extractLsb'_toNat]
  omega

theorem toNat_green (c : Rgb24) : (green c).toNat = c.toNat / 256 % 256 := by
  rw [green, BitVec.extractLsb'_toNat]
  omega

theorem toNat_blue (c : Rgb24) : (blue c).toNat = c.toNat % 256 := by
  rw [blue, BitVec.extractLsb'_toNat]
  omega

/-- Unpacking a colour and packing it again gives it back. -/
theorem rgb_red_green_blue (c : Rgb24) : rgb (red c) (green c) (blue c) = c := by
  apply BitVec.eq_of_toNat_eq
  rw [toNat_rgb, toNat_red, toNat_green, toNat_blue]
  omega

/-- Settles O8, from the number a packing has and the numbers the channels have. -/
theorem packedColourHoldsRedHighestBlueLowest : Obligations.PackedColourHoldsRedHighestBlueLowest :=
  ⟨fun r g b => ⟨toNat_rgb r g b, red_rgb r g b, green_rgb r g b, blue_rgb r g b⟩,
    fun c => ⟨rgb_red_green_blue c, toNat_red c, toNat_green c, toNat_blue c⟩⟩

/-! ### Reserved requests (R38, R39) -/

/-- R39: the operations that are not well-formed are CUBEVAL of 6 and of 7. -/
theorem not_wellFormed_iff (i : Instr) : ¬ i.WellFormed ↔ i = .cubeval 6 ∨ i = .cubeval 7 := by
  cases i with
  | cubeval k =>
    rw [Instr.wellFormed_cubeval, Instr.cubeval.injEq, Instr.cubeval.injEq]
    revert k
    decide
  | _ => simp

/-- R39: an operation is refused exactly when it is not well-formed. -/
theorem exec_refused_iff (i : Instr) (s : State) :
    (∃ why, exec i s = .refused why) ↔ ¬ i.WellFormed := by
  cases i with
  | cubeval k =>
    rw [Instr.wellFormed_cubeval]
    rcases Nat.lt_or_ge k.toNat 6 with hk | hk
    · rw [exec_cubeval_of_lt hk]
      exact iff_of_false (fun ⟨why, h⟩ => answer_ne_refused s _ why h) (fun h => h hk)
    · exact iff_of_true ⟨_, exec_cubeval_of_ge hk s⟩ hk.not_gt
  | _ => exact iff_of_false (fun ⟨why, h⟩ => answer_ne_refused s _ why h) (fun h => h rfl)

/-- R60: a well-formed operation answers in every block, with a response in range that is the same at
every state of it. -/
theorem exec_of_wellFormed (b : Build) {i : Instr} (hi : i.WellFormed) :
    ∃ r : Response, r.toNat ≤ maxResponse ∧ ∀ s : State, s.build = b → exec i s = answer s r := by
  obtain hanswer | ⟨why, hwhy⟩ := exec_answers_or_refuses b i
  · exact hanswer
  · exact absurd hi ((exec_refused_iff i ⟨b, [], []⟩).mp ⟨why, hwhy _ rfl⟩)

/-- Settles O7: refused are the operations that are not well-formed, and these are the two. -/
theorem onlyCubevalSixAndSevenAreRefused : Obligations.OnlyCubevalSixAndSevenAreRefused :=
  fun s i => ⟨(exec_refused_iff i s).trans (not_wellFormed_iff i),
    exec_cubeval_of_ge (by decide) s, exec_cubeval_of_ge (by decide) s⟩

/-- Settles O6: a reserved code decodes to the error that carries it, which the step refuses. -/
theorem reservedOperationCodesAreRefused : Obligations.ReservedOperationCodesAreRefused := by
  intro s w hop
  rw [← toNat_opField] at hop
  rw [step_of_decode_error (s.presentNext_requests w) (decode_reserved hop), refuseWord,
    ← toNat_opField, BitVec.ofNat_toNat, BitVec.setWidth_eq]

/-- Settles O9: this is what a step does when the oldest request decodes. -/
theorem stepRunsTheDecodedRequest : Obligations.StepRunsTheDecodedRequest :=
  fun _ _ _ _ => step_of_decode_ok

/-- R40: a defined request names a well-formed operation. -/
theorem decode_of_definedRequest {w : Request} (h : DefinedRequest w) :
    ∃ i : Instr, decode w = .ok i ∧ i.WellFormed := by
  obtain ⟨hlt, hcoord⟩ := h
  match hop : (opField w).toNat with
  | 0 => exact ⟨_, decode_dec hop, rfl⟩
  | 1 => exact ⟨_, decode_enc hop, rfl⟩
  | 2 => exact ⟨_, decode_cubeval hop, (Instr.wellFormed_cubeval _).mpr (hcoord hop)⟩
  | 3 => exact ⟨_, decode_lum hop, rfl⟩
  | 4 => exact ⟨_, decode_dist hop, rfl⟩
  | 5 => exact ⟨_, decode_cidxr hop, rfl⟩
  | 6 => exact ⟨_, decode_cidxg hop, rfl⟩
  | 7 => exact ⟨_, decode_cidxb hop, rfl⟩
  | 8 => exact ⟨_, decode_glut hop, rfl⟩
  | 9 => exact ⟨_, decode_cubeidx hop, rfl⟩
  | _ + 10 => omega

/-- R38, R39: a request that is not defined has a reserved code, or is CUBEVAL of a reserved
coordinate. -/
theorem reserved_of_not_definedRequest {w : Request} (h : ¬ DefinedRequest w) :
    10 ≤ (opField w).toNat ∨ ((opField w).toNat = 2 ∧ 6 ≤ (coordOperand w).toNat) := by
  unfold DefinedRequest at h
  omega

section Oldest

variable {s : State} {w : Request} {rest : List Request}

/-- R75: the step for a defined request takes it and gives one response. -/
theorem step_of_definedRequest (hs : s.requests = w :: rest) (hw : DefinedRequest w) :
    ∃ r : Response, r.toNat ≤ maxResponse ∧
      step s = .next (State.respond { s with requests := rest } r) := by
  obtain ⟨i, hdecode, hi⟩ := decode_of_definedRequest hw
  obtain ⟨r, hr, hexec⟩ := exec_of_wellFormed s.build hi
  exact ⟨r, hr, (step_of_decode_ok hs hdecode).trans (hexec _ rfl)⟩

/-- R38, R39: the step for a request that is not defined is refused. -/
theorem step_of_not_definedRequest (hs : s.requests = w :: rest) (hw : ¬ DefinedRequest w) :
    ∃ why : Refusal, step s = .refused why := by
  obtain hop | ⟨hop, hcoord⟩ := reserved_of_not_definedRequest hw
  · exact ⟨_, step_of_decode_error hs (decode_reserved hop)⟩
  · exact ⟨_, (step_of_decode_ok hs (decode_cubeval hop)).trans (exec_cubeval_of_ge hcoord _)⟩

end Oldest

theorem run_succ_of_next {M : Host.Core} {s t : M.State} (h : M.step s = .next t) (n : Nat) :
    M.run (n + 1) s = M.run n t := by
  rw [Host.Core.run, h]

theorem run_succ_of_refused {M : Host.Core} {s : M.State} {why : M.Refusal}
    (h : M.step s = .refused why) (n : Nat) : M.run (n + 1) s = .refused why := by
  rw [Host.Core.run, h]

/-- Settles O16, by induction on the defined requests before the reserved one: each takes one step. -/
theorem runWithReservedRequestIsRefused : Obligations.RunWithReservedRequestIsRefused := by
  intro b qs rest q rs extra hqs hq
  induction qs generalizing rs with
  | nil =>
    obtain ⟨why, hstep⟩ := step_of_not_definedRequest (s := ⟨b, q :: rest, rs⟩) rfl hq
    refine ⟨why, ?_⟩
    rw [List.length_nil, Nat.zero_add, Nat.add_comm]
    exact run_succ_of_refused hstep extra
  | cons p ps ih =>
    obtain ⟨hp, hps⟩ := List.forall_mem_cons.mp hqs
    obtain ⟨r, -, hstep⟩ := step_of_definedRequest (s := ⟨b, p :: ps ++ q :: rest, rs⟩) rfl hp
    obtain ⟨why, hrun⟩ := ih (rs ++ [r]) hps
    refine ⟨why, ?_⟩
    rw [List.length_cons, Nat.add_right_comm _ 1 1, Nat.add_right_comm _ 1 extra]
    exact (run_succ_of_next hstep _).trans hrun

/-! ### The cube and the ramp (R30, R31) -/

/-- A packed colour as a response, as one number (R28, R33). -/
theorem zext32_rgb (r g b : Byte) :
    zext32 (rgb r g b) = BitVec.ofNat 32 (65536 * r.toNat + 256 * g.toNat + b.toNat) := by
  rw [← toNat_rgb, BitVec.ofNat_toNat, zext32]

/-- R9: the intensity of each coordinate, in any block. -/
theorem toNat_cubeValue (b : Build) (k : Coord) :
    (cubeValue b k).toNat = [0, 95, 135, 175, 215, 255].getD k.val 0 := by
  rw [cubeValue, memRead_cubeValue]
  revert k
  decide

/-- R30: the index of a coordinate triple fits a byte. -/
theorem toNat_composeCube (kr kg kb : Coord) :
    (composeCube kr kg kb).toNat = 16 + 36 * kr.val + 6 * kg.val + kb.val := by
  rw [composeCube, BitVec.toNat_ofNat]
  omega

/-- R30, R44: the index of a coordinate triple decodes to the intensities of its coordinates. -/
theorem paletteDecode_composeCube (b : Build) (kr kg kb : Coord) :
    paletteDecode b (composeCube kr kg kb) = rgb (cubeValue b kr) (cubeValue b kg) (cubeValue b kb) := by
  have hi := toNat_composeCube kr kg kb
  rw [paletteDecode, dif_neg (by omega), dif_pos (by omega)]
  dsimp only
  congr 2
  all_goals
    apply Fin.ext
    simp only [hi]
    omega

/-- R31, R44: a ramp index decodes to the grey of its level, which fits a byte. -/
theorem paletteDecode_ramp (b : Build) {n : Byte} (hn : 232 ≤ n.toNat) :
    ∃ v : Byte, v.toNat = (n.toNat - 232) * 10 + 8 ∧ paletteDecode b n = rgb v v v := by
  refine ⟨BitVec.ofNat 8 ((n.toNat - 232) * 10 + 8), ?_, ?_⟩
  · rw [BitVec.toNat_ofNat]
    omega
  · rw [paletteDecode, dif_neg (by omega), dif_neg (by omega)]

/-- Settles O26: the coordinates are the digits of `i - 16` in base 6. -/
theorem cubeIndexAndCoordinatesAreInverse : Obligations.CubeIndexAndCoordinatesAreInverse := by
  refine fun s => ⟨fun i _ _ => by omega, fun kr kg kb => ?_⟩
  refine ⟨by omega, by omega, by omega, by omega, by omega, toNat_composeCube kr kg kb, ?_⟩
  change exec (.dec (composeCube kr kg kb)) s = _
  rw [exec_dec, paletteDecode_composeCube, zext32_rgb, toNat_cubeValue, toNat_cubeValue,
    toNat_cubeValue]
  rfl

/-- Settles O27: the level is the byte that the ramp puts in each channel. -/
theorem rampIndexStandsForItsGreyLevel : Obligations.RampIndexStandsForItsGreyLevel := by
  intro s n hn
  obtain ⟨v, hv, hdecode⟩ := paletteDecode_ramp s.build hn
  refine ⟨by omega, by omega, by omega, ?_⟩
  rw [exec_dec, hdecode, zext32_rgb, hv]
  rfl

/-! ### CONVERT (R42) -/

/-- The requester reads a result back from the response's low bits (R33). -/
theorem setWidth_zext32 {w : Nat} (hw : w ≤ 32) (v : BitVec w) : (zext32 v).setWidth w = v := by
  rw [zext32, BitVec.setWidth_setWidth_of_le v hw, BitVec.setWidth_eq]

/-- `F` of an operation's own request word is what the operation answers. -/
theorem responseTo_encode {b : Build} {i : Instr} {r : Response}
    (h : ∀ s : State, s.build = b → exec i s = answer s r) : responseTo b (encode i) = some r := by
  have hstep : step ⟨b, [encode i], []⟩ = answer ⟨b, [], []⟩ r :=
    (step_of_decode_ok rfl (decodeReadsBackEveryEncodedInstruction i)).trans (h _ rfl)
  rw [responseTo, hstep]
  rfl

theorem responseTo_dec (b : Build) (i : Byte) :
    responseTo b (encode (.dec i)) = some (zext32 (paletteDecode b i)) :=
  responseTo_encode fun s hs => by rw [exec_dec, hs]

theorem responseTo_enc (b : Build) (c : Rgb24) :
    responseTo b (encode (.enc c)) = some (zext32 (paletteEncode b c)) :=
  responseTo_encode fun s hs => by rw [exec_enc, hs]

theorem convertIndex_eq (b : Build) (i : Byte) : convertIndex b i = some (paletteDecode b i) := by
  simp only [convertIndex, responseTo_dec, setWidth_zext32 (show 24 ≤ 32 by decide)]

theorem convertColour_eq (b : Build) (c : Rgb24) :
    convertColour b c = some (paletteEncode b c, paletteDecode b (paletteEncode b c)) := by
  simp only [convertColour, responseTo_enc, setWidth_zext32 (show 8 ≤ 32 by decide), convertIndex_eq]

/-- Settles O48: each expansion is its requests, and `F` answers both. -/
theorem convertIsEncThenDec : Obligations.ConvertIsEncThenDec :=
  ⟨fun b i => ⟨_, convertIndex_eq b i, responseTo_dec b i⟩,
    fun b c => ⟨_, _, convertColour_eq b c, responseTo_enc b c, responseTo_dec b _⟩⟩

/-! ### What the assembler accepts (R41) -/

/-- A line of one operand word is made of a value that the word reads as. -/
theorem wordLine_eq_some {α : Type} {read : List Char → Option α} {make : α → Line}
    {ts : List Token} {l : Line} (h : wordLine read make ts = some l) :
    ∃ (cs : List Char) (v : α), read cs = some v ∧ l = make v := by
  unfold wordLine at h
  split at h
  next cs rest =>
    split at h
    next v hv =>
      obtain ⟨-, hl⟩ := Option.ite_none_right_eq_some.mp h
      exact ⟨cs, v, hv, (Option.some.inj hl).symm⟩
    next => cases h
  next => cases h

/-- A line of one colour operand is made of a colour. -/
theorem colourLine_eq_some {make : Rgb24 → Line} {ts : List Token} {l : Line}
    (h : colourLine make ts = some l) : ∃ c : Rgb24, l = make c := by
  unfold colourLine at h
  split at h
  next c rest hc =>
    obtain ⟨-, hl⟩ := Option.ite_none_right_eq_some.mp h
    exact ⟨c, (Option.some.inj hl).symm⟩
  next => cases h

theorem distLine_eq_some {ts : List Token} {l : Line} (h : distLine ts = some l) :
    ∃ x y : Rgb24, l = .request (.dist x y) := by
  unfold distLine at h
  split at h
  next x rest hx => exact ⟨x, colourLine_eq_some h⟩
  next => cases h

/-- A CONVERT line is no request. -/
theorem convertLine_ne_request (ts : List Token) (i : Instr) : convertLine ts ≠ some (.request i) := by
  intro h
  unfold convertLine at h
  split at h
  next =>
    obtain ⟨c, hl⟩ := colourLine_eq_some h
    cases hl
  next =>
    obtain ⟨cs, v, -, hl⟩ := wordLine_eq_some h
    cases hl

/-- CUBEVAL's operand is read as 0..5 only. -/
theorem toNat_lt_of_coordinateOperand {cs : List Char} {k : BitVec 3}
    (h : coordinateOperand cs = some k) : k.toNat < 6 := by
  unfold coordinateOperand at h
  split at h
  next n hn =>
    obtain ⟨hlt, hk⟩ := Option.ite_none_right_eq_some.mp h
    rw [← Option.some.inj hk, BitVec.toNat_ofNat]
    omega
  next => cases h

/-- R41: the operands of every mnemonic make a well-formed operation, if they make a request at all. -/
theorem wellFormed_of_operandsOf {mn : Mnemonic} {ts : List Token} {i : Instr}
    (h : operandsOf mn ts = some (.request i)) : i.WellFormed := by
  cases mn with
  | cubeval =>
    obtain ⟨cs, k, hk, hl⟩ := wordLine_eq_some h
    cases hl
    exact (Instr.wellFormed_cubeval k).mpr (toNat_lt_of_coordinateOperand hk)
  | convert => exact absurd h (convertLine_ne_request ts i)
  | dist =>
    obtain ⟨x, y, hl⟩ := distLine_eq_some h
    cases hl
    rfl
  | enc | lum | cubeidx =>
    obtain ⟨c, hl⟩ := colourLine_eq_some h
    cases hl
    rfl
  | dec | cidxr | cidxg | cidxb | glut =>
    obtain ⟨cs, v, -, hl⟩ := wordLine_eq_some h
    cases hl
    rfl

/-- Settles O49: a request line starts with a mnemonic, whose operands are checked. -/
theorem assembledRequestsAreWellFormed : Obligations.AssembledRequestsAreWellFormed := by
  intro text i h
  unfold assemble at h
  split at h
  next ts hlex =>
    obtain ⟨cs, v, -, hl⟩ := wordLine_eq_some h
    cases hl
  next m ts hlex =>
    split at h
    next mn hmn => exact wellFormed_of_operandsOf h
    next => cases h
  next => cases h

/-! ### Cutting a line into tokens -/

/-- A character of a word joins the word being read. -/
theorem lexLine_wordChar {c : Char} (hc : isWordChar c = true) (cs acc : List Char) :
    lexLine (c :: cs) acc = lexLine cs (c :: acc) := by
  rw [lexLine.eq_3 _ _ _ (by rintro cs rfl; exact absurd hc (by decide)), if_pos hc]

/-- The characters of a word, all of them, join the word being read. -/
theorem lexLine_word (ws cs acc : List Char) (hws : ws.all isWordChar = true) :
    lexLine (ws ++ cs) acc = lexLine cs (ws.reverse ++ acc) := by
  induction ws generalizing acc with
  | nil => rfl
  | cons w ws ih =>
    obtain ⟨hw, hws⟩ := (Bool.and_eq_true _ _).mp hws
    simp [lexLine_wordChar hw, ih _ hws]

theorem flushWord_of_ne_nil {acc : List Char} (hacc : acc ≠ []) (ts : List Token) :
    flushWord acc ts = .word acc.reverse :: ts := by
  cases acc with
  | nil => exact absurd rfl hacc
  | cons c cs => rfl

theorem flushWord_reverse {ws : List Char} (hws : ws ≠ []) (ts : List Token) :
    flushWord ws.reverse ts = .word ws :: ts := by
  rw [flushWord_of_ne_nil (List.reverse_ne_nil_iff.mpr hws), List.reverse_reverse]

section Word

variable {ws : List Char} (hne : ws ≠ []) (hws : ws.all isWordChar = true)

include hne hws

theorem lexLine_word_end : lexLine ws [] = [.word ws] := by
  have h := lexLine_word ws [] [] hws
  rw [List.append_nil, List.append_nil] at h
  rw [h, lexLine, flushWord_reverse hne]

theorem lexLine_word_space (cs : List Char) :
    lexLine (ws ++ ' ' :: cs) [] = .word ws :: lexLine cs [] := by
  rw [lexLine_word ws _ _ hws, List.append_nil]
  exact flushWord_reverse hne _

end Word

/-- Every mnemonic is a word. -/
theorem spelling_isWord {m : List Char} {mn : Mnemonic} (hmn : spellings.lookup m = some mn) :
    m ≠ [] ∧ m.all isWordChar = true := by
  have hall : ∀ p ∈ spellings, p.1 ≠ [] ∧ p.1.all isWordChar = true := by decide
  obtain ⟨l₁, l₂, hsplit, -⟩ := List.lookup_eq_some_iff.mp hmn
  exact hall (m, mn) (by simp [hsplit])

/-- R41: a mnemonic, a space and the operands. -/
theorem assemble_mnemonic {m : List Char} {mn : Mnemonic} (hmn : spellings.lookup m = some mn)
    (operands : List Char) :
    assemble (m ++ ' ' :: operands) = operandsOf mn (lexLine operands []) := by
  obtain ⟨hne, hm⟩ := spelling_isWord hmn
  rw [assemble, lexLine_word_space hne hm]
  simp only [hmn]

/-! ### Numerals -/

theorem isWordChar_upperDigit (d : Nat) : isWordChar (upperDigit d) = true := by
  rcases Nat.lt_or_ge d 16 with hd | hd
  · revert d
    decide
  · rw [upperDigit, List.getD_eq_default _ _ hd]
    decide

theorem decimalDigit_upperDigit {d : Nat} (hd : d < 10) : decimalDigit (upperDigit d) = some d := by
  revert d
  decide

theorem hexDigit_upperDigit {d : Nat} (hd : d < 16) : hexDigit (upperDigit d) = some d := by
  revert d
  decide

theorem digitsValue_cons {digit : Char → Option Nat} {c : Char} {d : Nat} (h : digit c = some d)
    (base : Nat) (cs : List Char) (acc : Nat) :
    digitsValue digit base (c :: cs) acc = digitsValue digit base cs (acc * base + d) := by
  rw [digitsValue, h]

theorem decimalNumeral_cons (c : Char) (cs : List Char) :
    decimalNumeral (c :: cs) = digitsValue decimalDigit 10 (c :: cs) 0 := rfl

theorem decimalText_ne_nil (n : Nat) : decimalText n ≠ [] := by
  unfold decimalText
  split_ifs <;> simp

theorem decimalText_wordChars (n : Nat) : (decimalText n).all isWordChar = true := by
  unfold decimalText
  split_ifs <;> simp [isWordChar_upperDigit]

/-- A numeral is read back as its number: Horner's rule on its digits. -/
theorem decimalNumeral_decimalText {n : Nat} (hn : n < 1000) :
    decimalNumeral (decimalText n) = some n := by
  unfold decimalText
  split_ifs with h10 h100
  · rw [decimalNumeral_cons, digitsValue_cons (decimalDigit_upperDigit h10), digitsValue, Nat.zero_mul,
      Nat.zero_add]
  · rw [decimalNumeral_cons, digitsValue_cons (decimalDigit_upperDigit (show n / 10 < 10 by omega)),
      digitsValue_cons (decimalDigit_upperDigit (show n % 10 < 10 by omega)), digitsValue,
      Option.some.injEq]
    omega
  · rw [decimalNumeral_cons, digitsValue_cons (decimalDigit_upperDigit (show n / 100 < 10 by omega)),
      digitsValue_cons (decimalDigit_upperDigit (show n / 10 % 10 < 10 by omega)),
      digitsValue_cons (decimalDigit_upperDigit (show n % 10 < 10 by omega)), digitsValue,
      Option.some.injEq]
    omega

theorem fits_toNat {w : Nat} (v : BitVec w) : fits w (some v.toNat) = some v := by
  simp [fits, v.isLt]

theorem decimalByte_decimalText (v : Byte) : decimalByte (decimalText v.toNat) = some v := by
  rw [decimalByte, decimalNumeral_decimalText (by omega), fits_toNat]

theorem indexOperand_decimalText (v : Byte) : indexOperand (decimalText v.toNat) = some v := by
  simp only [indexOperand, decimalByte_decimalText]

theorem coordinateOperand_decimalText {k : BitVec 3} (hk : k.toNat < 6) :
    coordinateOperand (decimalText k.toNat) = some k := by
  simp [coordinateOperand, decimalNumeral_decimalText (show k.toNat < 1000 by omega), hk]

theorem colourText_ne_nil (c : Rgb24) : colourText c ≠ [] := by simp [colourText]

theorem colourText_wordChars (c : Rgb24) : (colourText c).all isWordChar = true := by
  simp [colourText, sixHexDigits, isWordChar_upperDigit, show isWordChar '0' = true by decide,
    show isWordChar 'x' = true by decide]

/-- The six digits of a colour are read back as its number. -/
theorem hexNumeral_colourText (c : Rgb24) : hexNumeral 6 (colourText c) = some c.toNat := by
  have hc := c.isLt
  have hmod (n : Nat) : n % 16 < 16 := Nat.mod_lt n (by decide)
  rw [colourText, sixHexDigits]
  simp only [List.cons_append, List.nil_append, hexNumeral, List.length_cons, List.length_nil,
    if_pos]
  rw [digitsValue_cons (hexDigit_upperDigit (show c.toNat / 16 ^ 5 < 16 by omega)),
    digitsValue_cons (hexDigit_upperDigit (hmod _)), digitsValue_cons (hexDigit_upperDigit (hmod _)),
    digitsValue_cons (hexDigit_upperDigit (hmod _)), digitsValue_cons (hexDigit_upperDigit (hmod _)),
    digitsValue_cons (hexDigit_upperDigit (hmod _)), digitsValue, Option.some.injEq]
  omega

/-- A packed colour operand, up to the end of the line or to a `;`. -/
theorem colourOperand_colourText (c : Rgb24) {rest : List Token} (hrest : endsLine rest = true) :
    colourOperand (.word (colourText c) :: rest) = some (c, rest) := by
  have hfits : fits 24 (hexNumeral 6 (colourText c)) = some c := by
    rw [hexNumeral_colourText, fits_toNat]
  unfold endsLine at hrest
  split at hrest
  next => simp only [colourOperand, hfits]
  next => simp only [colourOperand, hfits]
  next => cases hrest

theorem wordLine_word {α : Type} {read : List Char → Option α} {cs : List Char} {v : α}
    (h : read cs = some v) (make : α → Line) : wordLine read make [.word cs] = some (make v) := by
  simp [wordLine, h, endsLine]

theorem colourLine_colourText (make : Rgb24 → Line) (c : Rgb24) :
    colourLine make [.word (colourText c)] = some (make c) := by
  rw [colourLine, colourOperand_colourText c rfl]
  rfl

theorem distLine_colourText (x y : Rgb24) :
    distLine [.word (colourText x), .semicolon, .word (colourText y)] =
      some (.request (.dist x y)) := by
  rw [distLine, colourOperand_colourText x rfl]
  exact colourLine_colourText _ y

/-! ### The text of a request, assembled -/

/-- The `;` of a DIST line and the space after it. -/
theorem lexLine_semicolon_space (cs : List Char) :
    lexLine (';' :: ' ' :: cs) [] = .semicolon :: lexLine cs [] := by
  rfl

theorem lexLine_colourText (c : Rgb24) : lexLine (colourText c) [] = [.word (colourText c)] :=
  lexLine_word_end (colourText_ne_nil c) (colourText_wordChars c)

theorem lexLine_distOperands (x y : Rgb24) :
    lexLine (colourText x ++ ' ' :: ';' :: ' ' :: colourText y) [] =
      [.word (colourText x), .semicolon, .word (colourText y)] := by
  rw [lexLine_word_space (colourText_ne_nil x) (colourText_wordChars x), lexLine_semicolon_space,
    lexLine_colourText]

section Mnemonic

variable {m : List Char} {mn : Mnemonic} (hmn : spellings.lookup m = some mn)

include hmn

/-- A request of one number: mnemonic, space, numeral. -/
theorem assemble_decimal (n : Nat) :
    assemble (m ++ ' ' :: decimalText n) = operandsOf mn [.word (decimalText n)] := by
  rw [assemble_mnemonic hmn, lexLine_word_end (decimalText_ne_nil n) (decimalText_wordChars n)]

/-- A request of one colour: mnemonic, space, packed colour. -/
theorem assemble_colour (c : Rgb24) :
    assemble (m ++ ' ' :: colourText c) = operandsOf mn [.word (colourText c)] := by
  rw [assemble_mnemonic hmn, lexLine_colourText]

end Mnemonic

/-- Settles O50: the mnemonic selects the line's form, and the form reads the operand back. -/
theorem assembleReadsBackEveryRenderedInstruction :
    Obligations.AssembleReadsBackEveryRenderedInstruction := by
  intro i hi
  cases i with
  | dec n =>
    exact (assemble_decimal (m := ['D', 'E', 'C']) rfl n.toNat).trans
      (wordLine_word (indexOperand_decimalText n) _)
  | enc c => exact (assemble_colour (m := ['E', 'N', 'C']) rfl c).trans (colourLine_colourText _ c)
  | cubeval k =>
    exact (assemble_decimal (m := ['C', 'U', 'B', 'E', 'V', 'A', 'L']) rfl k.toNat).trans
      (wordLine_word (coordinateOperand_decimalText ((Instr.wellFormed_cubeval k).mp hi)) _)
  | lum c => exact (assemble_colour (m := ['L', 'U', 'M']) rfl c).trans (colourLine_colourText _ c)
  | dist x y =>
    have hlex := assemble_mnemonic (m := ['D', 'I', 'S', 'T']) rfl
      (colourText x ++ ' ' :: ';' :: ' ' :: colourText y)
    rw [lexLine_distOperands] at hlex
    exact hlex.trans (distLine_colourText x y)
  | cidxr v =>
    exact (assemble_decimal (m := ['C', 'I', 'D', 'X', 'R']) rfl v.toNat).trans
      (wordLine_word (decimalByte_decimalText v) _)
  | cidxg v =>
    exact (assemble_decimal (m := ['C', 'I', 'D', 'X', 'G']) rfl v.toNat).trans
      (wordLine_word (decimalByte_decimalText v) _)
  | cidxb v =>
    exact (assemble_decimal (m := ['C', 'I', 'D', 'X', 'B']) rfl v.toNat).trans
      (wordLine_word (decimalByte_decimalText v) _)
  | glut v =>
    exact (assemble_decimal (m := ['G', 'L', 'U', 'T']) rfl v.toNat).trans
      (wordLine_word (decimalByte_decimalText v) _)
  | cubeidx c =>
    exact (assemble_colour (m := ['C', 'U', 'B', 'E', 'I', 'D', 'X']) rfl c).trans
      (colourLine_colourText _ c)

end Sys2Proof.Proofs

/-! PROOFS of the statements about CUBEVAL and DEC: the intensity of a coordinate, the colour of an
index, and which indices share one (`40_palette_decode.md`). -/

namespace Sys2Proof.Proofs

open Sys2Proof Sys2Proof.Machine

/-! ### CUBEVAL (R43) -/

/-- Settles O24: a defined coordinate reads its table entry, a reserved one is refused. -/
theorem cubevalGivesTheListedIntensity : Obligations.CubevalGivesTheListedIntensity := by
  intro s k
  obtain ⟨-, -, hword, -⟩ := requestWordIsOpThenAThenB
  refine ⟨hword k, fun hk => ?_, fun hk => exec_cubeval_of_ge hk s⟩
  rw [exec_cubeval_of_lt hk, zext32, ← BitVec.ofNat_toNat, toNat_cubeValue]
  rfl

/-! ### DEC of each range of indices (R44) -/

theorem paletteDecode_system (b : Build) {n : Byte} (hn : n.toNat < 16) :
    paletteDecode b n = sysColourTable.get ⟨n.toNat, hn⟩ := by
  rw [paletteDecode, dif_pos hn, memRead_sysColour]

/-- R8: the system colours as numbers. -/
theorem toNat_sysColour (k : Fin 16) : (sysColourTable.get k).toNat =
    [0x000000, 0xCE0000, 0x00CE00, 0xCECE00, 0x0000EE, 0xCE00CE, 0x00CECE, 0xEFEFEF,
     0x7F7F7F, 0xFF0000, 0x00FF00, 0xFFFF00, 0x5C5CFF, 0xFF00FF, 0x00FFFF, 0xFFFFFF].getD k.val 0 := by
  revert k
  decide

/-- R30: an index of 16..231 has coordinates. -/
theorem exists_composeCube {n : Byte} (hn : 16 ≤ n.toNat) (hn' : n.toNat < 232) :
    ∃ kr kg kb : Coord, n = composeCube kr kg kb := by
  refine ⟨⟨(n.toNat - 16) / 36, by omega⟩, ⟨(n.toNat - 16) / 6 % 6, by omega⟩,
    ⟨(n.toNat - 16) % 6, by omega⟩, BitVec.eq_of_toNat_eq ?_⟩
  rw [toNat_composeCube]
  dsimp only
  omega

/-- R44: above the system colours an index is a cube index or a ramp index. -/
theorem cube_or_ramp {n : Byte} (hn : 16 ≤ n.toNat) :
    (∃ kr kg kb : Coord, n = composeCube kr kg kb) ∨ 232 ≤ n.toNat :=
  (Nat.lt_or_ge n.toNat 232).imp_left (exists_composeCube hn)

/-- Settles O25: the system table's entry, the cube colour of the index's coordinates (O26), the ramp's
grey (O27). -/
theorem decGivesTheColourOfTheIndex : Obligations.DecGivesTheColourOfTheIndex := by
  intro s n i V grey
  obtain ⟨hword, -⟩ := requestWordIsOpThenAThenB
  refine ⟨by simpa using hword n, ?_⟩
  rcases Nat.lt_or_ge i 16 with hsys | hsys
  · rw [if_pos hsys, exec_dec, paletteDecode_system s.build hsys, zext32, ← BitVec.ofNat_toNat,
      toNat_sysColour]
    rfl
  rw [if_neg hsys.not_gt]
  rcases Nat.lt_or_ge i 232 with hcube | hramp
  · obtain ⟨kr, kg, kb, rfl⟩ := exists_composeCube hsys hcube
    obtain ⟨-, hcoords⟩ := cubeIndexAndCoordinatesAreInverse s
    obtain ⟨-, -, hr, hg, hb, hi, hexec⟩ := hcoords kr kg kb
    rw [if_pos hcube, show i = _ from hi, hr, hg, hb]
    exact hexec
  · obtain ⟨-, -, -, hexec⟩ := rampIndexStandsForItsGreyLevel s n hramp
    rw [if_neg hramp.not_gt]
    exact hexec

/-! ### Which indices share a colour (R44, corner cases)

The cube intensities are multiples of 5 and the ramp's levels are 3 above one, so red alone tells a cube
colour from a ramp grey. -/

theorem rgb_inj {r g b r' g' b' : Byte} :
    rgb r g b = rgb r' g' b' ↔ r = r' ∧ g = g' ∧ b = b' := by
  refine ⟨fun h => ⟨?_, ?_, ?_⟩, fun ⟨hr, hg, hb⟩ => by rw [hr, hg, hb]⟩
  · simpa using congrArg red h
  · simpa using congrArg green h
  · simpa using congrArg blue h

theorem cubeValue_injective (b : Build) : Function.Injective (cubeValue b) := by
  have hV : ∀ k k' : Coord, ([0, 95, 135, 175, 215, 255] : List Nat).getD k.val 0 =
      [0, 95, 135, 175, 215, 255].getD k'.val 0 → k = k' := by decide
  intro k k' h
  apply hV
  rw [← toNat_cubeValue b, ← toNat_cubeValue b, h]

theorem cubeValue_mod_five (b : Build) (k : Coord) : (cubeValue b k).toNat % 5 = 0 := by
  rw [toNat_cubeValue]
  revert k
  decide

/-- Every channel is a multiple of 5, as the cube intensities are. -/
abbrev MultiplesOfFive (c : Rgb24) : Prop :=
  (red c).toNat % 5 = 0 ∧ (green c).toNat % 5 = 0 ∧ (blue c).toNat % 5 = 0

theorem multiplesOfFive_cube (b : Build) (kr kg kb : Coord) :
    MultiplesOfFive (paletteDecode b (composeCube kr kg kb)) := by
  simp [MultiplesOfFive, paletteDecode_composeCube, cubeValue_mod_five]

theorem red_ramp_mod_five (b : Build) {n : Byte} (hn : 232 ≤ n.toNat) :
    (red (paletteDecode b n)).toNat % 5 = 3 := by
  obtain ⟨v, hv, hdecode⟩ := paletteDecode_ramp b hn
  rw [hdecode, red_rgb]
  omega

theorem paletteDecode_cube_ne_ramp (b : Build) (kr kg kb : Coord) {n : Byte} (hn : 232 ≤ n.toNat) :
    paletteDecode b (composeCube kr kg kb) ≠ paletteDecode b n := by
  intro h
  obtain ⟨hred, -, -⟩ := multiplesOfFive_cube b kr kg kb
  have hred' := red_ramp_mod_five b hn
  rw [h] at hred
  omega

/-- No two indices of 16..255 have the same colour. -/
theorem paletteDecode_injOn_upper (b : Build) :
    Set.InjOn (paletteDecode b) {n | 16 ≤ n.toNat} := by
  intro m hm n hn h
  obtain ⟨kr, kg, kb, rfl⟩ | hm := cube_or_ramp hm <;>
    obtain ⟨kr', kg', kb', rfl⟩ | hn := cube_or_ramp hn
  · rw [paletteDecode_composeCube, paletteDecode_composeCube, rgb_inj] at h
    obtain ⟨hr, hg, hb⟩ := h
    rw [cubeValue_injective b hr, cubeValue_injective b hg, cubeValue_injective b hb]
  · exact absurd h (paletteDecode_cube_ne_ramp b kr kg kb hn)
  · exact absurd h.symm (paletteDecode_cube_ne_ramp b kr' kg' kb' hm)
  · obtain ⟨v, hv, hdecode⟩ := paletteDecode_ramp b hm
    obtain ⟨v', hv', hdecode'⟩ := paletteDecode_ramp b hn
    rw [hdecode, hdecode', rgb_inj] at h
    obtain ⟨rfl, -, -⟩ := h
    exact BitVec.eq_of_toNat_eq (by omega)

theorem sysColour_injective : ∀ k k' : Fin 16, sysColourTable.get k = sysColourTable.get k' → k = k' := by
  decide

/-- No two system indices have the same colour. -/
theorem paletteDecode_injOn_system (b : Build) :
    Set.InjOn (paletteDecode b) {n | n.toNat < 16} := by
  intro m hm n hn h
  rw [paletteDecode_system b hm, paletteDecode_system b hn] at h
  exact BitVec.eq_of_toNat_eq (Fin.mk.inj (sysColour_injective _ _ h))

/-- The system indices whose colour is a cube colour, each with the cube index of that colour
(`93_implementation_defined.md` section 3.1). -/
def sharedColours : List (Byte × Byte) :=
  [(0, 16), (9, 196), (10, 46), (11, 226), (13, 201), (14, 51), (15, 231)]

/-- The colours of the seven pairs, in order. -/
def sharedRgb : List Rgb24 :=
  [rgb 0 0 0, rgb 255 0 0, rgb 0 255 0, rgb 255 255 0, rgb 255 0 255, rgb 0 255 255, rgb 255 255 255]

/-- The two indices of a listed pair have one colour, in any block. -/
theorem paletteDecode_shared (b : Build) :
    ∀ p ∈ sharedColours, paletteDecode b p.1 = paletteDecode b p.2 := by
  have hsystem : sharedColours.map (fun p => paletteDecode b p.1) = sharedRgb := rfl
  have hcube : sharedColours.map (fun p => paletteDecode b p.2) = sharedRgb := rfl
  exact List.map_inj_left.mp (hsystem.trans hcube.symm)

theorem sharedColours_upper : ∀ p ∈ sharedColours, 16 ≤ p.2.toNat := by
  simp [sharedColours]

theorem red_system_mod_five : ∀ k : Fin 16, (red (sysColourTable.get k)).toNat % 5 ≠ 3 := by decide

theorem shared_of_multiplesOfFive : ∀ k : Fin 16, MultiplesOfFive (sysColourTable.get k) →
    ∃ p ∈ sharedColours, p.1.toNat = k.val := by decide

/-- A system index and an index above share a colour only in the listed pairs: no system colour has a
ramp's red, and one made of multiples of 5 has a listed partner, which is the only one above with its
colour. -/
theorem paletteDecode_system_eq_upper_iff (b : Build) {m n : Byte} (hm : m.toNat < 16)
    (hn : 16 ≤ n.toNat) :
    paletteDecode b m = paletteDecode b n ↔ (m, n) ∈ sharedColours := by
  refine ⟨fun h => ?_, fun hmem => paletteDecode_shared b (m, n) hmem⟩
  have hsys := paletteDecode_system b hm
  obtain ⟨kr, kg, kb, hcube⟩ | hramp := cube_or_ramp hn
  · have hfive := multiplesOfFive_cube b kr kg kb
    rw [← hcube, ← h, hsys] at hfive
    obtain ⟨⟨m', n'⟩, hmem, hm'⟩ := shared_of_multiplesOfFive _ hfive
    obtain rfl : m' = m := BitVec.eq_of_toNat_eq hm'
    have hn' := (paletteDecode_shared b _ hmem).symm.trans h
    obtain rfl := paletteDecode_injOn_upper b (sharedColours_upper _ hmem) hn hn'
    exact hmem
  · have hred := red_ramp_mod_five b hramp
    rw [← h, hsys] at hred
    exact absurd hred (red_system_mod_five _)

/-- The response holds the whole colour, so DEC answers two indices alike only if they have one colour. -/
theorem exec_dec_eq_iff (s : State) (m n : Byte) :
    exec (.dec m) s = exec (.dec n) s ↔ paletteDecode s.build m = paletteDecode s.build n := by
  refine ⟨fun h => ?_, fun h => by rw [exec_dec, exec_dec, h]⟩
  have hresponse : zext32 (paletteDecode s.build m) = zext32 (paletteDecode s.build n) := by
    simpa [answer, State.respond] using h
  have hcolour := congrArg (BitVec.setWidth 24) hresponse
  rwa [setWidth_zext32 (by decide), setWidth_zext32 (by decide)] at hcolour

/-- Settles O28: above the system colours, among them, and across. -/
theorem decIsInjectiveAboveTheSystemColours : Obligations.DecIsInjectiveAboveTheSystemColours := by
  intro s
  simp only [exec_dec_eq_iff]
  exact ⟨fun m n hm hn h => paletteDecode_injOn_upper s.build hm hn h,
    fun m n hm hn h => paletteDecode_injOn_system s.build hm hn h,
    fun m n hm hn => paletteDecode_system_eq_upper_iff s.build hm hn⟩

end Sys2Proof.Proofs

/-! PROOFS of the statements about LUM and GLUT: the weighted sum, the table's entries, and the grey
candidate they give together (`41_luminance_greylut.md`). -/

namespace Sys2Proof.Proofs

open Sys2Proof Sys2Proof.Machine

/-! ### LUM (R45) -/

/-- R45: the three weights add up to `2^24`, so the sum is at most 255 of it. -/
theorem luminanceSum_le (c : Rgb24) : luminanceSum c ≤ 4278190080 := by
  have hr := (red c).isLt
  have hg := (green c).isLt
  have hb := (blue c).isLt
  simp only [luminanceSum, lumWR, lumWG, lumWB]
  omega

/-- R45: the shifted sum fits a byte, so nothing is cut off. -/
theorem toNat_luminance (c : Rgb24) : (luminance c).toNat = luminanceSum c / 2 ^ 24 := by
  have hsum := luminanceSum_le c
  rw [luminance, BitVec.toNat_ofNat, lumShift, Nat.shiftRight_eq_div_pow]
  omega

/-- R45: for a grey the weights add up to `2^24`. -/
theorem luminanceSum_grey (v : Byte) : luminanceSum (rgb v v v) = 2 ^ 24 * v.toNat := by
  simp only [luminanceSum, lumWR, lumWG, lumWB, red_rgb, green_rgb, blue_rgb]
  omega

theorem luminanceSum_mono {c d : Rgb24} (hr : (red c).toNat ≤ (red d).toNat)
    (hg : (green c).toNat ≤ (green d).toNat) (hb : (blue c).toNat ≤ (blue d).toNat) :
    luminanceSum c ≤ luminanceSum d := by
  unfold luminanceSum
  gcongr

/-- A result of at most 32 bits as a response, as its number (R33). -/
theorem zext32_eq_ofNat {w : Nat} (v : BitVec w) : zext32 v = BitVec.ofNat 32 v.toNat := by
  rw [zext32, BitVec.ofNat_toNat]

/-- Settles O29, from the bound of the sum. -/
theorem lumGivesTheWeightedSumShiftedRight : Obligations.LumGivesTheWeightedSumShiftedRight := by
  intro s c acc
  obtain ⟨-, -, -, hword, -⟩ := requestWordIsOpThenAThenB
  have hacc : acc ≤ 4278190080 := luminanceSum_le c
  refine ⟨hword c, hacc, by omega, ?_⟩
  rw [exec_lum, zext32_eq_ofNat, toNat_luminance]
  rfl

/-- Settles O30: the sum of a grey is `2^24` times its level, and the sum is monotone. -/
theorem luminanceKeepsGreysAndIsMonotone : Obligations.LuminanceKeepsGreysAndIsMonotone := by
  refine ⟨fun v => BitVec.eq_of_toNat_eq ?_, fun c d hr hg hb => ?_⟩
  · rw [toNat_luminance, luminanceSum_grey, Nat.mul_div_cancel_left _ (by decide)]
  · rw [toNat_luminance, toNat_luminance]
    exact Nat.div_le_div_right (luminanceSum_mono hr hg hb)

/-! ### GLUT (R46) -/

/-- R13: the grey indices are the six cube greys and the ramp. -/
theorem toNat_of_mem_greyIndices {g : Byte} (hg : g ∈ greyIndices) :
    g.toNat ∈ [16, 59, 102, 145, 188, 231] ∨ 232 ≤ g.toNat := by
  obtain hcube | hramp := List.mem_append.mp hg
  · exact .inl (List.mem_map_of_mem (f := BitVec.toNat) hcube)
  · obtain ⟨k, hk, rfl⟩ := List.mem_map.mp hramp
    have hlt := List.mem_range.mp hk
    right
    rw [BitVec.toNat_ofNat]
    omega

theorem greyIndex_eq_getElem (b : Build) (v : Byte) : greyIndex b v = b.greyLut[v.toNat] :=
  greyLut_get b v

/-- R13: the entry at any byte of an admissible table. -/
theorem greyIndex_mem_greyIndices {b : Build} (hlut : GreyLutAdmissible b.greyLut) (v : Byte) :
    greyIndex b v ∈ greyIndices := by
  obtain ⟨hrange, -, -⟩ := hlut
  exact hrange ⟨v.toNat, v.isLt⟩

/-- R14: the entry at the byte of a ramp level. -/
theorem toNat_greyIndex_ramp {b : Build} (hlut : GreyLutAdmissible b.greyLut) {v : Byte} {k : Nat}
    (hk : k < 24) (hv : v.toNat = 8 + 10 * k) : (greyIndex b v).toNat = 232 + k := by
  obtain ⟨-, hramp, -⟩ := hlut
  have hentry := hramp ⟨k, hk⟩
  simp only [greyIndex_eq_getElem, hv, hentry, BitVec.toNat_ofNat]
  omega

/-- R15: the entry at the byte of a cube grey. -/
theorem toNat_greyIndex_cube {b : Build} (hlut : GreyLutAdmissible b.greyLut) {v : Byte} :
    ∀ p ∈ [(0, 16), (95, 59), (135, 102), (175, 145), (215, 188), (255, 231)],
      v.toNat = p.1 → (greyIndex b v).toNat = p.2 := by
  obtain ⟨-, -, h0, h95, h135, h175, h215, h255⟩ := hlut
  simp +contextual [greyIndex_eq_getElem, h0, h95, h135, h175, h215, h255]

/-- Settles O31, the last part by R13, R14 and R15 of the table. -/
theorem glutGivesTheTableEntry : Obligations.GlutGivesTheTableEntry := by
  intro s v
  obtain ⟨-, -, -, -, -, -, -, -, hword, -⟩ := requestWordIsOpThenAThenB
  refine ⟨hword v, ?_, fun hlut => ?_⟩
  · rw [exec_glut, zext32_eq_ofNat]
    rfl
  · exact ⟨toNat_of_mem_greyIndices (greyIndex_mem_greyIndices hlut v),
      fun k hk hv => toNat_greyIndex_ramp hlut hk hv, toNat_greyIndex_cube hlut⟩

/-! ### The grey candidate (R47) -/

/-- R47: a grey index decodes to a grey. -/
theorem exists_paletteDecode_grey (b : Build) {g : Byte} (hg : g ∈ greyIndices) :
    ∃ v : Byte, paletteDecode b g = rgb v v v := by
  obtain ⟨p, hp, rfl⟩ := List.mem_map.mp (greys_perm_greyIndices.mem_iff.mpr hg)
  exact ⟨p.2, paletteDecode_grey b p hp⟩

/-- Settles O32: each operation reads the byte that the one before it answered. -/
theorem greyCandidateIsAlwaysAGrey : Obligations.GreyCandidateIsAlwaysAGrey := by
  intro s c hlut
  have hgrey : greyCandidate s.build c ∈ greyIndices := greyIndex_mem_greyIndices hlut _
  obtain ⟨g, hdecode⟩ := exists_paletteDecode_grey s.build hgrey
  have hlow : ∀ v : Byte, (zext32 v).setWidth 8 = v := setWidth_zext32 (by decide)
  refine ⟨zext32 (luminance c), zext32 (greyCandidate s.build c), zext32 (rgb g g g),
    exec_lum c s, ?_, ?_, hlow _, ?_, g, rfl⟩
  · rw [hlow]
    exact exec_glut _ s
  · rw [hlow, ← hdecode]
    exact exec_dec _ s
  · have hlt := (greyCandidate s.build c).isLt
    rw [zext32_toNat (by decide)]
    exact (toNat_of_mem_greyIndices hgrey).imp_right fun hramp => ⟨hramp, by omega⟩

end Sys2Proof.Proofs

/-! PROOFS of the statements about DIST and the comparator of ENC: the distance as a sum of three weighted
squares of natural numbers, its properties and its maximum, and the tie of R51 (`42_distance.md`). -/

namespace Sys2Proof.Proofs

open Sys2Proof Sys2Proof.Machine

/-! ### The parts of the distance (R50) -/

/-- `rSum` of R48. -/
def redSum (x y : Rgb24) : Nat := (red x).toNat + (red y).toNat

/-- The square of the difference of two channels, in natural numbers. -/
def channelSq (u v : Byte) : Nat := Nat.dist u.toNat v.toNat ^ 2

theorem redSum_le (x y : Rgb24) : redSum x y ≤ 510 := by
  have hx := (red x).isLt
  have hy := (red y).isLt
  rw [redSum]
  omega

theorem redSum_comm (x y : Rgb24) : redSum x y = redSum y x := Nat.add_comm _ _

theorem channelSq_comm (u v : Byte) : channelSq u v = channelSq v u := by
  rw [channelSq, Nat.dist_comm, channelSq]

theorem channelSq_eq_zero_iff {u v : Byte} : channelSq u v = 0 ↔ u = v := by
  rw [channelSq, pow_eq_zero_iff two_ne_zero]
  exact ⟨fun h => BitVec.eq_of_toNat_eq (Nat.eq_of_dist_eq_zero h), fun h => h ▸ Nat.dist_self _⟩

theorem cast_channelSq (u v : Byte) : (channelSq u v : Int) = ((u.toNat : Int) - v.toNat) ^ 2 := by
  rw [channelSq, Nat.cast_pow]
  rcases Nat.le_total u.toNat v.toNat with h | h
  · rw [Nat.dist_eq_sub_of_le h, Nat.cast_sub h, sub_sq_comm]
  · rw [Nat.dist_eq_sub_of_le_right h, Nat.cast_sub h]

theorem channelSq_le (u v : Byte) : channelSq u v ≤ 65025 := by
  have hle := squared_byte_sub_le u v
  rw [squared, ← pow_two, ← cast_channelSq] at hle
  exact_mod_cast hle

/-- The score of R48 is a natural number: `rSum` is below the base of the blue weight. -/
theorem distanceScore_eq_cast (x y : Rgb24) : distanceScore x y =
    ((1024 + redSum x y) * channelSq (red x) (red y) + 2048 * channelSq (green x) (green y) +
      (1534 - redSum x y) * channelSq (blue x) (blue y) : Nat) := by
  have hsum : redSum x y ≤ 1534 := (redSum_le x y).trans (by decide)
  push_cast [Nat.cast_sub hsum, cast_channelSq]
  simp only [distanceScore, squared, distRBase, distGW, distBBase, redSum, Nat.cast_add, pow_two]

/-- R48 in natural numbers. -/
theorem distance_eq (x y : Rgb24) : distance x y =
    (1024 + redSum x y) * channelSq (red x) (red y) + 2048 * channelSq (green x) (green y) +
      (1534 - redSum x y) * channelSq (blue x) (blue y) := by
  rw [distance, distanceScore_eq_cast, Int.toNat_natCast]

/-- R50: the score is never negative, so nothing is lost in the distance. -/
theorem cast_distance (x y : Rgb24) : (distance x y : Int) = distanceScore x y := by
  rw [distance_eq, distanceScore_eq_cast]

/-! ### DIST (R48) -/

/-- Settles O33: the distance is below `2 ^ 32`, so the response holds all of it. -/
theorem distGivesTheWeightedSquaredDifference :
    Obligations.DistGivesTheWeightedSquaredDifference := by
  intro s x y rSum dr dg db
  obtain ⟨-, -, -, -, hword, -⟩ := requestWordIsOpThenAThenB
  have hresponse : (BitVec.ofNat 32 (distance x y)).toNat = distance x y :=
    Nat.mod_eq_of_lt ((distance_le_maxResponse x y).trans_lt (by decide))
  refine ⟨hword x y, BitVec.ofNat 32 (distance x y), exec_dist x y s, ?_, hresponse⟩
  rw [hresponse, cast_distance]
  simp only [distanceScore, squared, ← pow_two]
  rfl

/-! ### Properties of the distance (R49) -/

theorem colour_ext {x y : Rgb24} (hr : red x = red y) (hg : green x = green y)
    (hb : blue x = blue y) : x = y := by
  rw [← rgb_red_green_blue x, hr, hg, hb, rgb_red_green_blue]

/-- The three weights are positive, so no term with a difference vanishes. -/
theorem distance_eq_zero_iff {x y : Rgb24} : distance x y = 0 ↔ x = y := by
  have hsum := redSum_le x y
  have hred : 1024 + redSum x y ≠ 0 := by omega
  have hblue : 1534 - redSum x y ≠ 0 := by omega
  simp only [distance_eq, Nat.add_eq_zero_iff, mul_eq_zero, hred, hblue, OfNat.ofNat_ne_zero, false_or,
    channelSq_eq_zero_iff]
  exact ⟨fun ⟨⟨hr, hg⟩, hb⟩ => colour_ext hr hg hb, fun h => by simp [h]⟩

theorem distance_comm (x y : Rgb24) : distance x y = distance y x := by
  simp only [distance_eq, redSum_comm x y, channelSq_comm (red x), channelSq_comm (green x),
    channelSq_comm (blue x)]

/-- Settles O34; the triangle that breaks the inequality is three greys in a row, where the distance is
4606 times a square. -/
theorem distanceIsZeroOnlyOnEqualAndSymmetric :
    Obligations.DistanceIsZeroOnlyOnEqualAndSymmetric :=
  ⟨fun _ => distance_eq_zero_iff.mpr rfl, distance_comm,
    fun _ _ hne => Nat.pos_of_ne_zero (mt distance_eq_zero_iff.mp hne), distance_grey,
    rgb 0 0 0, rgb 1 1 1, rgb 2 2 2, by decide⟩

/-! ### The maximum of the distance (R50) -/

/-- Weights `p`, 2048 and `q` that add up to 4606, squares of at most 65025: the sum is at its maximum
only if each positive weight has its square there. -/
theorem weighted_sum_eq_max_iff {p q r g b : Nat} (hpq : p + q = 2558) (hp : 0 < p) (hq : 0 < q)
    (hr : r ≤ 65025) (hg : g ≤ 65025) (hb : b ≤ 65025) :
    p * r + 2048 * g + q * b = 299505150 ↔ r = 65025 ∧ g = 65025 ∧ b = 65025 := by
  have hpr := Nat.mul_le_mul_left p hr
  have hqb := Nat.mul_le_mul_left q hb
  constructor
  · intro hmax
    have hrmax : p * r = p * 65025 := by omega
    have hbmax : q * b = q * 65025 := by omega
    exact ⟨Nat.eq_of_mul_eq_mul_left hp hrmax, by omega, Nat.eq_of_mul_eq_mul_left hq hbmax⟩
  · rintro ⟨rfl, rfl, rfl⟩
    omega

/-- The weights add up to 4606 whatever `rSum` is, and none of them is zero. -/
theorem distance_eq_max_iff (x y : Rgb24) : distance x y = 299505150 ↔
    channelSq (red x) (red y) = 65025 ∧ channelSq (green x) (green y) = 65025 ∧
      channelSq (blue x) (blue y) = 65025 := by
  have hsum := redSum_le x y
  rw [distance_eq]
  exact weighted_sum_eq_max_iff (by omega) (by omega) (by omega) (channelSq_le ..) (channelSq_le ..)
    (channelSq_le ..)

/-- Settles O35: each square is at most 65025, each of the red and blue weights at most 1534, and the two
add up to 2558. -/
theorem distanceIsAtMostItsMaximum : Obligations.DistanceIsAtMostItsMaximum := by
  intro x y rSum r2 g2 b2
  have hsum : rSum ≤ 510 := redSum_le x y
  have hr : r2 ≤ 65025 := channelSq_le (red x) (red y)
  have hg : g2 ≤ 65025 := channelSq_le (green x) (green y)
  have hb : b2 ≤ 65025 := channelSq_le (blue x) (blue y)
  have hred : (1024 + rSum) * r2 ≤ (1024 + rSum) * 65025 := Nat.mul_le_mul_left _ hr
  have hblue : (1534 - rSum) * b2 ≤ (1534 - rSum) * 65025 := Nat.mul_le_mul_left _ hb
  exact ⟨distance_eq x y, distance_le_maxResponse x y, distance_eq_max_iff x y, hsum, hr, hg, hb,
    by omega, by omega, by omega, by omega⟩

/-! ### The tie (R51) -/

/-- R51: on equal distances the cube candidate. -/
theorem select_tie (gi ci : Byte) (d : Nat) : select gi d ci d = ci := if_neg (Nat.lt_irrefl d)

/-- The colour of P5 (`95_test_vectors.md`). -/
def tieColour : Rgb24 := rgb 38 110 115

theorem luminance_tieColour : luminance tieColour = 95 := by decide

theorem distance_tieColour_grey : distance tieColour (rgb 95 95 95) = 4780293 := by decide

theorem distance_tieColour_cube : distance tieColour (rgb 95 95 135) = 4780293 := by decide

/-- R56 with `THRESH_SENSE = upper`: 38 and 115 are thresholds and count, so the coordinates are
`1, 1, 2`. -/
theorem cubeCandidate_tieColour {b : Build} (hsense : b.threshSense = .upper) :
    cubeCandidate b tieColour = composeCube 1 1 2 := by
  have hr : cubeIndexR b 38 = 1 := by rw [cubeIndexR, hsense]; rfl
  have hg : cubeIndexG b 110 = 1 := by rw [cubeIndexG, hsense]; rfl
  have hb : cubeIndexB b 115 = 2 := by rw [cubeIndexB, hsense]; rfl
  rw [cubeCandidate, tieColour, red_rgb, green_rgb, blue_rgb, hr, hg, hb]

theorem greyCandidate_tieColour {b : Build} (hentry : b.greyLut[95] = 59) :
    greyCandidate b tieColour = 59 := by
  rw [greyCandidate, luminance_tieColour, greyIndex_eq_getElem]
  exact hentry

/-- R51 on the colour of P5: it is no grey, and its two candidates are equally far. -/
theorem paletteEncode_tieColour {b : Build} (hsense : b.threshSense = .upper)
    (hentry : b.greyLut[95] = 59) : paletteEncode b tieColour = composeCube 1 1 2 := by
  have hgrey : paletteDecode b 59 = rgb 95 95 95 := paletteDecode_grey b (59, 95) (by decide)
  have hcube : paletteDecode b (composeCube 1 1 2) = rgb 95 95 135 := paletteDecode_composeCube b 1 1 2
  rw [paletteEncode, if_neg (by decide), encodeGeneral]
  simp only [greyCandidate_tieColour hentry, cubeCandidate_tieColour hsense, hgrey, hcube,
    distance_tieColour_grey, distance_tieColour_cube, select_tie]

/-- Settles O47: the two candidates, their equal distances, and ENC's choice. -/
theorem encBreaksTheTieToTheCubeCandidate : Obligations.EncBreaksTheTieToTheCubeCandidate := by
  intro s hsense hentry
  rw [← tieColour]
  simp only [Answers, exec_cubeidx, exec_lum, exec_dist, exec_enc, cubeCandidate_tieColour hsense,
    luminance_tieColour, distance_tieColour_grey, distance_tieColour_cube,
    paletteEncode_tieColour hsense hentry]
  exact ⟨rfl, rfl, rfl, rfl, rfl⟩

end Sys2Proof.Proofs

/-! PROOFS of the statements about CIDXR, CIDXG, CIDXB and CUBEIDX: a coordinate lies above exactly the
thresholds its byte counts, which gives the intervals and where two coordinates of a byte differ
(`43_cube_indexing.md`). -/

namespace Sys2Proof.Proofs

open Sys2Proof Sys2Proof.Machine

/-! ### CubeIndex (R52) -/

theorem passes_upper_iff {t v : Byte} : passes .upper t v = true ↔ t.toNat ≤ v.toNat :=
  decide_eq_true_iff

theorem passes_lower_iff {t v : Byte} : passes .lower t v = true ↔ t.toNat < v.toNat :=
  decide_eq_true_iff

/-- A byte counts what a smaller or equal byte counts, and counts a threshold whenever it counts a
larger or equal one. -/
theorem passes_mono {sense : ThreshSense} {t u v w : Byte} (htu : t.toNat ≤ u.toNat)
    (hvw : v.toNat ≤ w.toNat) (h : passes sense u v = true) : passes sense t w = true := by
  cases sense with
  | upper =>
    rw [passes_upper_iff] at h ⊢
    exact (htu.trans h).trans hvw
  | lower =>
    rw [passes_lower_iff] at h ⊢
    exact (htu.trans_lt h).trans_le hvw

/-- D7: the two senses read a byte differently at the threshold itself, and nowhere else. -/
theorem passes_upper_ne_lower_iff {t v : Byte} : passes .upper t v ≠ passes .lower t v ↔ v = t := by
  rw [← BitVec.toNat_inj, Ne, Bool.eq_iff_iff, passes_upper_iff, passes_lower_iff]
  omega

theorem cubeIndex_mono (sense : ThreshSense) (T : Fin 5 → Byte) {v w : Byte} (hvw : v ≤ w) :
    cubeIndex sense T v ≤ cubeIndex sense T w :=
  List.countP_mono_left fun _ _ => passes_mono le_rfl hvw

/-- The thresholds of a channel ascend, as those of R10 do (`threshR_ascending` and its like). -/
abbrev Ascending (T : Fin 5 → Byte) : Prop := T 0 < T 1 ∧ T 1 < T 2 ∧ T 2 < T 3 ∧ T 3 < T 4

/-- Of five thresholds of which each is counted only with the one before it, the counted ones come
first. -/
theorem lt_countP_iff_of_initial : ∀ p : Fin 5 → Bool,
    (∀ j : Fin 4, p j.succ = true → p j.castSucc = true) →
    ∀ j : Fin 5, j.val < ([0, 1, 2, 3, 4] : List (Fin 5)).countP p ↔ p j = true := by
  decide

/-- R52 with `THRESH_SENSE = upper`, over the thresholds as numbers. -/
theorem cubeIndex_upper_eq_countP (T : Fin 5 → Byte) (v : Byte) : (cubeIndex .upper T v).val =
    ([0, 1, 2, 3, 4].map fun j => (T j).toNat).countP fun t => decide (t ≤ v.toNat) := by
  rw [List.countP_map]
  rfl

section AscendingThresholds

variable {T U : Fin 5 → Byte} {sense sense' : ThreshSense} {v : Byte}

theorem Ascending.castSucc_le_succ (hT : Ascending T) (j : Fin 4) :
    (T j.castSucc).toNat ≤ (T j.succ).toNat := by
  obtain ⟨h01, h12, h23, h34⟩ := hT
  match j with
  | 0 => exact Nat.le_of_lt h01
  | 1 => exact Nat.le_of_lt h12
  | 2 => exact Nat.le_of_lt h23
  | 3 => exact Nat.le_of_lt h34

/-- R52: the coordinate is above `j` exactly when the byte counts threshold `j`. -/
theorem lt_cubeIndex_iff (hT : Ascending T) (j : Fin 5) :
    j.val < (cubeIndex sense T v).val ↔ passes sense (T j) v = true :=
  lt_countP_iff_of_initial (fun j => passes sense (T j) v)
    (fun j => passes_mono (hT.castSucc_le_succ j) le_rfl) j

/-- Two coordinates of a byte are equal exactly when the byte counts the same thresholds, place by
place. -/
theorem cubeIndex_eq_iff (hT : Ascending T) (hU : Ascending U) :
    cubeIndex sense T v = cubeIndex sense' U v ↔
      ∀ j, passes sense (T j) v = passes sense' (U j) v := by
  refine ⟨fun h j => ?_, fun h => ?_⟩
  · rw [Bool.eq_iff_iff, ← lt_cubeIndex_iff hT, ← lt_cubeIndex_iff hU, h]
  · simp only [cubeIndex, h]

/-- R52 with `THRESH_SENSE = upper`: the coordinate is the number of the interval the byte falls in. -/
theorem cubeIndex_upper_eq_interval (hT : Ascending T) : (cubeIndex .upper T v).val =
    if v < T 0 then 0 else if v < T 1 then 1 else if v < T 2 then 2
    else if v < T 3 then 3 else if v < T 4 then 4 else 5 := by
  have above (j : Fin 5) : j.val < (cubeIndex .upper T v).val ↔ (T j).toNat ≤ v.toNat :=
    (lt_cubeIndex_iff hT j).trans passes_upper_iff
  have h0 := above 0
  have h1 := above 1
  have h2 := above 2
  have h3 := above 3
  have h4 := above 4
  simp only [BitVec.lt_def]
  split_ifs <;> omega

/-- With `THRESH_SENSE = upper` a byte's two coordinates are equal exactly when it reaches the same
thresholds, place by place. -/
theorem cubeIndex_upper_eq_iff (hT : Ascending T) (hU : Ascending U) :
    cubeIndex .upper T v = cubeIndex .upper U v ↔
      ∀ j, (T j).toNat ≤ v.toNat ↔ (U j).toNat ≤ v.toNat := by
  rw [cubeIndex_eq_iff hT hU]
  refine forall_congr' fun j => ?_
  rw [Bool.eq_iff_iff, passes_upper_iff, passes_upper_iff]

end AscendingThresholds

/-- Settles O36: the intervals, the monotone count, and the senses' coordinates compared threshold by
threshold. -/
theorem cubeIndexFollowsTheThresholdChain : Obligations.CubeIndexFollowsTheThresholdChain := by
  intro T h01 h12 h23 h34
  have hT : Ascending T := ⟨h01, h12, h23, h34⟩
  refine ⟨fun v => cubeIndex_upper_eq_interval hT, fun sense v w => cubeIndex_mono sense T, fun v => ?_⟩
  rw [Ne, cubeIndex_eq_iff hT hT, not_forall]
  exact exists_congr fun j => passes_upper_ne_lower_iff

/-! ### The three channels (R53 to R55) -/

theorem threshR_ascending : Ascending threshRTable.get := by decide
theorem threshG_ascending : Ascending threshGTable.get := by decide
theorem threshB_ascending : Ascending threshBTable.get := by decide

theorem coordResponse_eq_ofNat (k : Coord) : coordResponse k = BitVec.ofNat 32 k.val := by
  rw [coordResponse, zext32_eq_ofNat, BitVec.toNat_ofNat, Nat.mod_eq_of_lt (by omega)]

/-- A response holds the whole coordinate, so two coordinates are answered alike only if equal. -/
theorem answer_coordResponse_inj {s : State} {k k' : Coord} :
    answer s (coordResponse k) = answer s (coordResponse k') ↔ k = k' := by
  have hinj : ∀ k k' : Coord, coordResponse k = coordResponse k' → k = k' := by decide
  refine ⟨fun h => hinj k k' ?_, fun h => by rw [h]⟩
  simpa [answer, State.respond] using h

section UpperSense

variable {b : Build} {v : Byte} (hsense : b.threshSense = .upper)
include hsense

theorem cubeIndexR_upper : cubeIndexR b v = cubeIndex .upper threshRTable.get v := by
  rw [cubeIndexR, hsense]
  rfl

theorem cubeIndexG_upper : cubeIndexG b v = cubeIndex .upper threshGTable.get v := by
  rw [cubeIndexG, hsense]
  rfl

theorem cubeIndexB_upper : cubeIndexB b v = cubeIndex .upper threshBTable.get v := by
  rw [cubeIndexB, hsense]
  rfl

/-- R10: the listed bytes are those between a red threshold and the green one of the same place, the
lower of the two included. -/
theorem cubeIndexR_eq_cubeIndexG_iff :
    cubeIndexR b v = cubeIndexG b v ↔ v.toNat ∉ [36, 37, 115, 154, 195] := by
  have places : (∀ j, (threshRTable.get j).toNat ≤ v.toNat ↔ (threshGTable.get j).toNat ≤ v.toNat) ↔
      (38 ≤ v.toNat ↔ 36 ≤ v.toNat) ∧ (115 ≤ v.toNat ↔ 116 ≤ v.toNat) ∧
      (155 ≤ v.toNat ↔ 154 ≤ v.toNat) ∧ (196 ≤ v.toNat ↔ 195 ≤ v.toNat) := by
    simp [Fin.forall_fin_succ, threshRTable, threshGTable]
  rw [cubeIndexR_upper hsense, cubeIndexG_upper hsense,
    cubeIndex_upper_eq_iff threshR_ascending threshG_ascending, places]
  simp only [List.mem_cons, List.not_mem_nil, or_false]
  omega

/-- R10: likewise for green and blue. -/
theorem cubeIndexG_eq_cubeIndexB_iff :
    cubeIndexG b v = cubeIndexB b v ↔ v.toNat ∉ [35, 115, 154] := by
  have places : (∀ j, (threshGTable.get j).toNat ≤ v.toNat ↔ (threshBTable.get j).toNat ≤ v.toNat) ↔
      (36 ≤ v.toNat ↔ 35 ≤ v.toNat) ∧ (116 ≤ v.toNat ↔ 115 ≤ v.toNat) ∧
      (154 ≤ v.toNat ↔ 155 ≤ v.toNat) := by
    simp [Fin.forall_fin_succ, threshGTable, threshBTable]
  rw [cubeIndexG_upper hsense, cubeIndexB_upper hsense,
    cubeIndex_upper_eq_iff threshG_ascending threshB_ascending, places]
  simp only [List.mem_cons, List.not_mem_nil, or_false]
  omega

end UpperSense

/-- Settles O37: the intervals of the red thresholds. -/
theorem cidxrGivesTheRedCoordinate : Obligations.CidxrGivesTheRedCoordinate := by
  intro s v hsense
  obtain ⟨-, -, -, -, -, hword, -⟩ := requestWordIsOpThenAThenB
  refine ⟨hword v, ?_⟩
  rw [exec_cidxr, coordResponse_eq_ofNat, cubeIndexR_upper hsense,
    cubeIndex_upper_eq_interval threshR_ascending]
  rfl

/-- Settles O38: the intervals of the green thresholds. -/
theorem cidxgGivesTheGreenCoordinate : Obligations.CidxgGivesTheGreenCoordinate := by
  intro s v hsense
  obtain ⟨-, -, -, -, -, -, hword, -⟩ := requestWordIsOpThenAThenB
  refine ⟨hword v, ?_⟩
  rw [exec_cidxg, coordResponse_eq_ofNat, cubeIndexG_upper hsense,
    cubeIndex_upper_eq_interval threshG_ascending]
  rfl

/-- Settles O39: the intervals of the blue thresholds. -/
theorem cidxbGivesTheBlueCoordinate : Obligations.CidxbGivesTheBlueCoordinate := by
  intro s v hsense
  obtain ⟨-, -, -, -, -, -, -, hword, -⟩ := requestWordIsOpThenAThenB
  refine ⟨hword v, ?_⟩
  rw [exec_cidxb, coordResponse_eq_ofNat, cubeIndexB_upper hsense,
    cubeIndex_upper_eq_interval threshB_ascending]
  rfl

/-- Settles O40: red and green part at five of the bytes, green and blue at 35, 115 and 154. -/
theorem channelsDifferOnlyAtSixBytes : Obligations.ChannelsDifferOnlyAtSixBytes := by
  intro s v hsense
  rw [exec_cidxr, exec_cidxg, exec_cidxb, answer_coordResponse_inj, answer_coordResponse_inj,
    cubeIndexR_eq_cubeIndexG_iff hsense, cubeIndexG_eq_cubeIndexB_iff hsense]
  simp only [List.mem_cons, List.not_mem_nil, or_false]
  omega

/-! ### CUBEIDX (R56) -/

/-- R56: the response to CUBEIDX, from the three coordinates. -/
theorem zext32_cubeCandidate (b : Build) (c : Rgb24) : zext32 (cubeCandidate b c) =
    BitVec.ofNat 32 (16 + 36 * (cubeIndexR b (red c)).val + 6 * (cubeIndexG b (green c)).val +
      (cubeIndexB b (blue c)).val) := by
  rw [zext32_eq_ofNat, cubeCandidate, toNat_composeCube]

/-- Settles O41: the counts are the three coordinates, each at most 5. -/
theorem cubeidxComposesTheThreeCoordinates : Obligations.CubeidxComposesTheThreeCoordinates := by
  intro s c hsense counted i
  obtain ⟨-, -, -, -, -, -, -, -, -, hword⟩ := requestWordIsOpThenAThenB
  have hr : counted [38, 115, 155, 196, 235] (red c) = (cubeIndexR s.build (red c)).val := by
    rw [cubeIndexR_upper hsense, cubeIndex_upper_eq_countP]
    rfl
  have hg : counted [36, 116, 154, 195, 235] (green c) = (cubeIndexG s.build (green c)).val := by
    rw [cubeIndexG_upper hsense, cubeIndex_upper_eq_countP]
    rfl
  have hb : counted [35, 115, 155, 195, 235] (blue c) = (cubeIndexB s.build (blue c)).val := by
    rw [cubeIndexB_upper hsense, cubeIndex_upper_eq_countP]
    rfl
  have hi : i = 16 + 36 * (cubeIndexR s.build (red c)).val + 6 * (cubeIndexG s.build (green c)).val +
      (cubeIndexB s.build (blue c)).val := by rw [← hr, ← hg, ← hb]
  refine ⟨hword c, by omega, by omega, ?_⟩
  rw [exec_cubeidx, zext32_cubeCandidate, hi]
  rfl

/-- R9, R10: the intensity of a coordinate lies strictly between the thresholds around it, in every
channel, so it has that coordinate under either sense. -/
theorem cubeIndex_cubeValueTable (sense : ThreshSense) (k : Coord) :
    cubeIndex sense threshRTable.get (cubeValueTable.get k) = k ∧
    cubeIndex sense threshGTable.get (cubeValueTable.get k) = k ∧
    cubeIndex sense threshBTable.get (cubeValueTable.get k) = k := by
  cases sense with
  | upper =>
    revert k
    decide
  | lower =>
    revert k
    decide

/-- R56: the cube candidate of a cube colour is its own index. -/
theorem cubeCandidate_rgb_cubeValue (b : Build) (kr kg kb : Coord) :
    cubeCandidate b (rgb (cubeValue b kr) (cubeValue b kg) (cubeValue b kb)) =
      composeCube kr kg kb := by
  obtain ⟨hr, -, -⟩ := cubeIndex_cubeValueTable b.threshSense kr
  obtain ⟨-, hg, -⟩ := cubeIndex_cubeValueTable b.threshSense kg
  obtain ⟨-, -, hb⟩ := cubeIndex_cubeValueTable b.threshSense kb
  rw [cubeCandidate, red_rgb, green_rgb, blue_rgb]
  exact congr (congrArg₂ composeCube hr hg) hb

/-- Settles O43: the index has coordinates, DEC gives their intensities, and CUBEIDX reads them back. -/
theorem cubeidxOfACubeColourIsItsOwnIndex : Obligations.CubeidxOfACubeColourIsItsOwnIndex := by
  intro s n hn hn'
  obtain ⟨kr, kg, kb, rfl⟩ := exists_composeCube hn (Nat.lt_succ_of_le hn')
  refine ⟨zext32 (paletteDecode s.build (composeCube kr kg kb)), exec_dec _ s, ?_⟩
  rw [setWidth_zext32 (by decide), paletteDecode_composeCube, exec_cubeidx,
    cubeCandidate_rgb_cubeValue]
  rfl

end Sys2Proof.Proofs

/-! PROOFS of the statements about ENC: its two paths, the range of its result, and the round trip through
DEC on the cube and on the ramp (`44_palette_encode.md`). -/

namespace Sys2Proof.Proofs

open Sys2Proof Sys2Proof.Machine

/-! ### The two paths (R57) -/

/-- R51, as the requester sees it: the comparison picks one of the two candidates' responses. -/
theorem zext32_select (gi : Byte) (gd : Nat) (ci : Byte) (cd : Nat) :
    zext32 (select gi gd ci cd) = if gd < cd then zext32 gi else zext32 ci :=
  apply_ite zext32 ..

/-- R51: the general path looks at two candidates only. -/
theorem encodeGeneral_eq_or (b : Build) (c : Rgb24) :
    encodeGeneral b c = greyCandidate b c ∨ encodeGeneral b c = cubeCandidate b c :=
  ite_eq_or_eq ..

/-- R57, step 1. -/
theorem paletteEncode_of_grey (b : Build) {c : Rgb24} (hgrey : red c = green c ∧ green c = blue c) :
    paletteEncode b c = greyIndex b (red c) := if_pos hgrey

/-- R59, row 3: the entry of the level, whatever the thresholds are. -/
theorem paletteEncode_rgb_grey (b : Build) (v : Byte) : paletteEncode b (rgb v v v) = greyIndex b v := by
  rw [paletteEncode_of_grey b (by simp), red_rgb]

/-- R57, steps 2 to 6. -/
theorem paletteEncode_of_not_grey (b : Build) {c : Rgb24}
    (hgrey : ¬ (red c = green c ∧ green c = blue c)) : paletteEncode b c = encodeGeneral b c :=
  if_neg hgrey

/-- R50: a distance fits the response of DIST. -/
theorem toNat_ofNat_distance (x y : Rgb24) : (BitVec.ofNat 32 (distance x y)).toNat = distance x y :=
  Nat.mod_eq_of_lt ((distance_le_maxResponse x y).trans_lt (by decide))

/-- Settles O44: the requester passes each result on to the next operation as the general path does. -/
theorem encChoosesTheNearerOfTwoCandidates : Obligations.EncChoosesTheNearerOfTwoCandidates := by
  intro s c
  obtain ⟨-, hword, -⟩ := requestWordIsOpThenAThenB
  refine ⟨hword c, fun hgrey => ?_, fun hgrey => ?_⟩
  · rw [exec_enc, paletteEncode_of_grey _ hgrey, zext32_eq_ofNat, greyIndex_eq_getElem]
    rfl
  · have hbyte (v : Byte) : (zext32 v).setWidth 8 = v := setWidth_zext32 (by decide) v
    have hcolour (x : Rgb24) : (zext32 x).setWidth 24 = x := setWidth_zext32 (by decide) x
    have hdec (n : Byte) :
        Answers (.dec ((zext32 n).setWidth 8)) s (zext32 (paletteDecode s.build n)) := by
      rw [hbyte]
      exact exec_dec n s
    have hdist (x : Rgb24) :
        Answers (.dist c ((zext32 x).setWidth 24)) s (BitVec.ofNat 32 (distance c x)) := by
      rw [hcolour]
      exact exec_dist c x s
    have hglut : Answers (.glut ((zext32 (luminance c)).setWidth 8)) s
        (zext32 (greyCandidate s.build c)) := by
      rw [hbyte]
      exact exec_glut _ s
    refine ⟨_, _, _, _, _, _, _,
      exec_lum c s, hglut, hdec _, hdist _, exec_cubeidx c s, hdec _, hdist _, ?_⟩
    rw [exec_enc, paletteEncode_of_not_grey _ hgrey, encodeGeneral, zext32_select,
      toNat_ofNat_distance, toNat_ofNat_distance]
    rfl

/-! ### The range of the result (R58) -/

/-- R13: no entry of an admissible table is a system colour's index. -/
theorem le_toNat_greyIndex {b : Build} (hlut : GreyLutAdmissible b.greyLut) (v : Byte) :
    16 ≤ (greyIndex b v).toNat := by
  have hgreys : ∀ g ∈ [16, 59, 102, 145, 188, 231], 16 ≤ g := by decide
  obtain hcube | hramp := toNat_of_mem_greyIndices (greyIndex_mem_greyIndices hlut v)
  · exact hgreys _ hcube
  · omega

/-- R56: a cube candidate is no system colour's index. -/
theorem le_toNat_cubeCandidate (b : Build) (c : Rgb24) : 16 ≤ (cubeCandidate b c).toNat := by
  rw [cubeCandidate, toNat_composeCube]
  omega

/-- R58: the result is an entry of the table or a cube candidate. -/
theorem le_toNat_paletteEncode {b : Build} (hlut : GreyLutAdmissible b.greyLut) (c : Rgb24) :
    16 ≤ (paletteEncode b c).toNat := by
  by_cases hgrey : red c = green c ∧ green c = blue c
  · rw [paletteEncode_of_grey b hgrey]
    exact le_toNat_greyIndex hlut _
  · rw [paletteEncode_of_not_grey b hgrey]
    obtain h | h := encodeGeneral_eq_or b c
    · rw [h]
      exact le_toNat_greyIndex hlut _
    · rw [h]
      exact le_toNat_cubeCandidate b c

/-- Settles O45: the result is at least 16, so it differs from any index below. -/
theorem encNeverGivesASystemColour : Obligations.EncNeverGivesASystemColour := by
  intro s hlut
  have hrange (c : Rgb24) : 16 ≤ (zext32 (paletteEncode s.build c)).toNat := by
    rw [zext32_toNat (by decide)]
    exact le_toNat_paletteEncode hlut c
  refine ⟨fun c => ⟨_, hrange c, ?_, exec_enc c s⟩, fun n hn => ⟨_, _, exec_dec n s, exec_enc _ s, ?_⟩⟩
  · rw [zext32_toNat (by decide)]
    exact Nat.le_of_lt_succ (paletteEncode s.build c).isLt
  · intro heq
    have hle := hrange ((zext32 (paletteDecode s.build n)).setWidth 24)
    rw [heq, zext32_toNat (by decide)] at hle
    omega

/-! ### ENC of DEC (R59) -/

/-- R9, R15, R30: the byte that is pinned at each intensity, against the index of the cube grey of that
intensity. -/
theorem pinned_cubeGrey : ∀ k : Coord,
    (([0, 95, 135, 175, 215, 255] : List Nat).getD k.val 0, 16 + 36 * k.val + 6 * k.val + k.val) ∈
      [(0, 16), (95, 59), (135, 102), (175, 145), (215, 188), (255, 231)] := by
  decide

/-- R15: the table gives a cube grey its own index. -/
theorem greyIndex_cubeValue {b : Build} (hlut : GreyLutAdmissible b.greyLut) (k : Coord) :
    greyIndex b (cubeValue b k) = composeCube k k k := by
  apply BitVec.eq_of_toNat_eq
  rw [toNat_composeCube]
  exact toNat_greyIndex_cube hlut _ (pinned_cubeGrey k) (toNat_cubeValue b k)

/-- R49 (a), R51: a cube candidate at distance zero is never beaten. -/
theorem encodeGeneral_of_decode_cubeCandidate {b : Build} {c : Rgb24}
    (h : paletteDecode b (cubeCandidate b c) = c) : encodeGeneral b c = cubeCandidate b c := by
  have hzero : distance c (paletteDecode b (cubeCandidate b c)) = 0 :=
    distance_eq_zero_iff.mpr h.symm
  rw [encodeGeneral, hzero]
  exact if_neg (Nat.not_lt_zero _)

/-- R59, row 1: a cube grey has its pinned entry; any other cube colour is its own cube candidate. -/
theorem paletteEncode_decode_cube {b : Build} (hlut : GreyLutAdmissible b.greyLut) (kr kg kb : Coord) :
    paletteEncode b (paletteDecode b (composeCube kr kg kb)) = composeCube kr kg kb := by
  have hdecode := paletteDecode_composeCube b kr kg kb
  have hcandidate := cubeCandidate_rgb_cubeValue b kr kg kb
  rw [← hdecode] at hcandidate
  by_cases hgrey : kr = kg ∧ kg = kb
  · obtain ⟨rfl, rfl⟩ := hgrey
    rw [hdecode, paletteEncode_rgb_grey, greyIndex_cubeValue hlut]
  · rw [paletteEncode_of_not_grey, encodeGeneral_of_decode_cubeCandidate (by rw [hcandidate]), hcandidate]
    simpa only [hdecode, red_rgb, green_rgb, blue_rgb, (cubeValue_injective b).eq_iff] using hgrey

/-- R59, row 2: a ramp grey has its pinned entry. -/
theorem paletteEncode_decode_ramp {b : Build} (hlut : GreyLutAdmissible b.greyLut) {n : Byte}
    (hn : 232 ≤ n.toNat) : paletteEncode b (paletteDecode b n) = n := by
  obtain ⟨v, hv, hdecode⟩ := paletteDecode_ramp b hn
  have hentry := toNat_greyIndex_ramp hlut (k := n.toNat - 232) (v := v) (by omega) (by omega)
  rw [hdecode, paletteEncode_rgb_grey]
  exact BitVec.eq_of_toNat_eq (by omega)

/-- Settles O46: an index of 16..255 is one of the cube or of the ramp. -/
theorem encInvertsDecAboveTheSystemColours : Obligations.EncInvertsDecAboveTheSystemColours := by
  intro s n hlut hn
  have hround : paletteEncode s.build (paletteDecode s.build n) = n := by
    obtain ⟨kr, kg, kb, rfl⟩ | hramp := cube_or_ramp hn
    · exact paletteEncode_decode_cube hlut kr kg kb
    · exact paletteEncode_decode_ramp hlut hramp
  refine ⟨_, exec_dec n s, ?_⟩
  rw [setWidth_zext32 (by decide), exec_enc, hround]
  rfl

end Sys2Proof.Proofs

/-! PROOFS of the statements about exceptions: no operation raises one, and a block that is presented
with no request is idle (`60_exceptions.md`). -/

namespace Sys2Proof.Proofs

open Sys2Proof Sys2Proof.Machine

/-- Settles O10: with an empty list of requests the step is the idle one (log 5). -/
theorem stepWithoutRequestChangesNothing : Obligations.StepWithoutRequestChangesNothing :=
  fun _ => step_of_requests_nil

/-- Settles O21: a well-formed operation answers; the request presented is the oldest one, so the step
answers it when it is defined and refuses it when it is reserved. -/
theorem noOperationRaisesAnException : Obligations.NoOperationRaisesAnException := by
  intro s
  refine ⟨fun i hi => ?wellFormed, fun w hw => ?defined, fun w hw => ?reserved⟩
  case wellFormed =>
    obtain ⟨r, -, hexec⟩ := exec_of_wellFormed s.build hi
    exact ⟨s.respond r, hexec s rfl⟩
  case defined =>
    obtain ⟨r, -, hstep⟩ := step_of_definedRequest (s.presentNext_requests w) hw
    exact ⟨_, hstep⟩
  case reserved => exact step_of_not_definedRequest (s.presentNext_requests w) hw

end Sys2Proof.Proofs

/-! PROOFS of the statements about a run: every defined request is answered, in order, by the response it
would get alone, whatever is presented behind it (`70_reset_and_hazards.md`). -/

namespace Sys2Proof.Proofs

open Sys2Proof Sys2Proof.Machine

/-- R70: a step takes the oldest request; when idle there is none to take. -/
theorem step_requests {s t : State} (h : step s = .next t) : t.requests = s.requests.tail := by
  cases hs : s.requests with
  | nil =>
    rw [step_of_requests_nil hs] at h
    cases h
    exact hs
  | cons w rest =>
    obtain ⟨i, -, hexec⟩ := exec_of_step_eq_next hs h
    obtain ⟨r, -, rfl, -⟩ := exec_eq_next hexec
    rfl

/-- Settles O11: the request presented next is the oldest, so the step answers it. -/
theorem definedRequestIsAnsweredByOneStep : Obligations.DefinedRequestIsAnsweredByOneStep :=
  fun s w hw => step_of_definedRequest (s.presentNext_requests w) hw

/-- Settles O14: the step runs the oldest request's operation, which reads nothing but the build, so it
gives the same response with one request more behind. -/
theorem requestPresentedLaterWaitsItsTurn : Obligations.RequestPresentedLaterWaitsItsTurn := by
  intro s t w hne h
  refine ⟨?_, step_requests h⟩
  obtain ⟨q, rest, hs⟩ := List.exists_cons_of_ne_nil hne
  obtain ⟨i, hdecode, hexec⟩ := exec_of_step_eq_next hs h
  obtain ⟨r, -, rfl, hsame⟩ := exec_eq_next hexec
  have hpresent : (s.present w).requests = q :: (rest ++ [w]) := by
    rw [State.present_requests, hs, List.cons_append]
  exact (step_of_decode_ok hpresent hdecode).trans (hsame _ rfl)

/-! ### Runs that keep R70 -/

/-- A run that keeps R70 is never stopped by its next step: it is idle or answers a defined request. -/
theorem step_of_safeRun {s : State} (hsafe : SafeRun s) : ∃ t : State, step s = .next t := by
  cases hs : s.requests with
  | nil => exact ⟨s, step_of_requests_nil hs⟩
  | cons w rest =>
    obtain ⟨r, -, hstep⟩ := step_of_definedRequest hs (hsafe w (hs ▸ List.mem_cons_self))
    exact ⟨_, hstep⟩

/-- A step presents nothing, so a run keeps R70 after it. -/
theorem safeRun_of_step {s t : State} (hsafe : SafeRun s) (h : step s = .next t) : SafeRun t :=
  fun w hw => hsafe w (List.mem_of_mem_tail (step_requests h ▸ hw))

/-- Settles O15, by induction on the number of steps: each ends, and leaves a safe run with the oldest
request gone. -/
theorem safeRunNeverStops : Obligations.SafeRunNeverStops := by
  intro n
  induction n with
  | zero => exact fun s hsafe => ⟨s, rfl, hsafe, rfl⟩
  | succ n ih =>
    intro s hsafe
    obtain ⟨u, hstep⟩ := step_of_safeRun hsafe
    obtain ⟨t, hrun, ht, hdrop⟩ := ih u (safeRun_of_step hsafe hstep)
    refine ⟨t, (run_succ_of_next hstep n).trans hrun, ht, ?_⟩
    rw [hdrop, step_requests hstep, List.drop_tail]

/-- R32, R72: the step for a defined request gives it the response `F` gives it alone. -/
theorem step_gives_responseTo {s : State} {w : Request} {rest : List Request}
    (hs : s.requests = w :: rest) (hw : DefinedRequest w) :
    ∃ r : Response, responseTo s.build w = some r ∧
      step s = .next (State.respond { s with requests := rest } r) := by
  obtain ⟨i, hdecode, hi⟩ := decode_of_definedRequest hw
  obtain ⟨r, -, hexec⟩ := exec_of_wellFormed s.build hi
  have halone : step ⟨s.build, [w], []⟩ = answer ⟨s.build, [], []⟩ r :=
    (step_of_decode_ok rfl hdecode).trans (hexec _ rfl)
  refine ⟨r, ?_, (step_of_decode_ok hs hdecode).trans (hexec _ rfl)⟩
  rw [responseTo, halone]
  rfl

/-- Settles O13, by induction on the requests: the first step answers the first request as `F` does, and
the rest run from there, behind one response more. -/
theorem runAnswersEveryRequestInOrder : Obligations.RunAnswersEveryRequestInOrder := by
  intro b qs rs hqs
  induction qs generalizing rs with
  | nil => exact ⟨[], rfl, by rw [List.append_nil]; rfl⟩
  | cons q qs ih =>
    obtain ⟨hq, hrest⟩ := List.forall_mem_cons.mp hqs
    obtain ⟨r, hr, hstep⟩ := step_gives_responseTo (s := ⟨b, q :: qs, rs⟩) rfl hq
    obtain ⟨out, hout, hrun⟩ := ih (rs ++ [r]) hrest
    refine ⟨r :: out, ?_, ?_⟩
    · rw [List.map_cons, List.map_cons, hr, hout]
    · rw [List.append_cons]
      exact (run_succ_of_next hstep qs.length).trans hrun

end Sys2Proof.Proofs

/-! PROOFS of the statements about the printed requests and about the lower threshold sense: a printed
word is the encoder's own word for its operation, and a coordinate is the number of its channel's
thresholds below the byte (`30_encoding.md` section 5, `92_eei_decisions.md` D7). -/

namespace Sys2Proof.Proofs

open Sys2Proof Sys2Proof.Machine

/-! ### The printed requests -/

theorem decode_of_eq_encode {w : Request} {i : Instr} (h : w = encode i) : decode w = .ok i := by
  rw [h, decodeReadsBackEveryEncodedInstruction]

/-- Settles O5: each printed word is the request word of its operation, which decodes back to it. -/
theorem printedRequestWordsDecode : Obligations.PrintedRequestWordsDecode := by
  refine ⟨?dec50, ?dec232, ?enc, ?cubeval, ?lum, ?dist, ?cidxr, ?cidxg, ?cidxb, ?glut, ?cubeidx⟩
  all_goals
    apply decode_of_eq_encode
    decide

/-! ### The lower threshold sense (D7) -/

/-- R52 with `THRESH_SENSE = lower`, over the thresholds as numbers. -/
theorem cubeIndex_lower_eq_countP (T : Fin 5 → Byte) (v : Byte) : (cubeIndex .lower T v).val =
    ([0, 1, 2, 3, 4].map fun j => (T j).toNat).countP fun t => decide (t < v.toNat) := by
  rw [List.countP_map]
  rfl

section LowerSense

variable {b : Build} (hsense : b.threshSense = .lower) (v : Byte)
include hsense

/-- R10, R53: the red thresholds below the byte. -/
theorem cubeIndexR_lower_eq_countP : (cubeIndexR b v).val =
    [38, 115, 155, 196, 235].countP fun t => decide (t < v.toNat) := by
  rw [cubeIndexR, hsense, cubeIndex_lower_eq_countP]
  rfl

/-- R10, R54: the green thresholds below the byte. -/
theorem cubeIndexG_lower_eq_countP : (cubeIndexG b v).val =
    [36, 116, 154, 195, 235].countP fun t => decide (t < v.toNat) := by
  rw [cubeIndexG, hsense, cubeIndex_lower_eq_countP]
  rfl

/-- R10, R55: the blue thresholds below the byte. -/
theorem cubeIndexB_lower_eq_countP : (cubeIndexB b v).val =
    [35, 115, 155, 195, 235].countP fun t => decide (t < v.toNat) := by
  rw [cubeIndexB, hsense, cubeIndex_lower_eq_countP]
  rfl

end LowerSense

/-- Settles O42: each channel's response is its coordinate, and CUBEIDX composes the three; under
`lower` the coordinates are the counts. -/
theorem lowerSenseCountsThresholdsBelowTheByte :
    Obligations.LowerSenseCountsThresholdsBelowTheByte := by
  intro s v c hsense counted R G B
  have hR (u : Byte) : (cubeIndexR s.build u).val = counted R u := cubeIndexR_lower_eq_countP hsense u
  have hG (u : Byte) : (cubeIndexG s.build u).val = counted G u := cubeIndexG_lower_eq_countP hsense u
  have hB (u : Byte) : (cubeIndexB s.build u).val = counted B u := cubeIndexB_lower_eq_countP hsense u
  refine ⟨?cidxr, ?cidxg, ?cidxb, ?cubeidx⟩
  case cidxr =>
    rw [exec_cidxr, coordResponse_eq_ofNat, hR]
    rfl
  case cidxg =>
    rw [exec_cidxg, coordResponse_eq_ofNat, hG]
    rfl
  case cidxb =>
    rw [exec_cidxb, coordResponse_eq_ofNat, hB]
    rfl
  case cubeidx =>
    rw [exec_cubeidx, zext32_cubeCandidate, hR, hG, hB]
    rfl

end Sys2Proof.Proofs
